-- ==== Sys2Proof/Word.lean ====
section
/-! DEFINITION. The words of the core: a byte, the 3-byte frame, and the two closed choices of the frame layouts
(spec/00_scope.md, spec/20_memory.md). -/

namespace Sys2Proof

/-- A byte: bit 7 is the most significant (R42). -/
abbrev Byte := BitVec 8

/-- A 5-bit checksum (R6). -/
abbrev Crc := BitVec 5

/-- A frame: exactly 3 bytes, the control byte, the data byte and the checksum byte (R40). -/
structure Frame where
  b0 : Byte
  b1 : Byte
  b2 : Byte
  deriving DecidableEq, Repr, Inhabited

/-- The two control-byte layouts (R3, R21): `outDriver` is the spec's OUT, `inReceiver` its IN. -/
inductive Variant where
  | outDriver
  | inReceiver
  deriving DecidableEq, Repr, Inhabited

/-- The direction of a register operation (R69). -/
inductive Direction where
  | read
  | write
  deriving DecidableEq, Repr, Inhabited

end Sys2Proof
end

