-- ==== Sys2Proof/Config.lean ====
section
/-! DEFINITION. What is fixed: the constants of R6, the configuration of a device instance (R7, R21 to R24) with the
values the reset state is created with, and the one free value, the transport's answer (R216). -/

namespace Sys2Proof

/-- R6: `POLY = 0b110101`. -/
def Config.poly : BitVec 6 := 0b110101#6

/-- R6: `INIT = 0b00111`. -/
def Config.init : BitVec 5 := 0b00111#5

/-- The configuration of one device (R21 to R24): written when the device instance is created, then read-only.
`regset` is the set of R23, listed in strictly rising order (log 15). -/
structure DeviceConfig where
  variant  : Variant
  chipAddr : BitVec 2
  regset   : List Byte
  deriving DecidableEq, Repr

/-- The transport's answer to one exchange (R9, R216): a 3-byte response frame, or a failure passed on with no
further context (R203). -/
inductive TransportAnswer where
  | response (g : Frame)
  | failure
  deriving DecidableEq, Repr, Inhabited

/-- FREE VALUE (log 2): the answer of the n-th exchange that no script determines. R216: "any 3-byte value or a
failure, under no law". It has no body, so nothing can be proved of it. -/
opaque Config.freeAnswer : Nat → TransportAnswer

/-- DESIGN CHOICE (log 1): the configuration of the device in `State.reset`. R240 gives none ("No default value
exists"); no statement rests on these values. -/
def Config.resetDevice : DeviceConfig where
  variant  := .outDriver
  chipAddr := 0#2
  regset   := (List.range 32).map (BitVec.ofNat 8)

end Sys2Proof
end

