-- ==== Sys2Proof/Machine/FrameBits.lean ====
section
/-! DEFINITION. The bits of a frame: its 24-bit value, its byte and bit order, the CRC payload and working value, and
the field patterns of spec/opcode_table.json (spec/20_memory.md, spec/30_encoding.md, R26, R27). -/

namespace Sys2Proof.Machine

/-- R41: `FV(F) = F[0] ++ F[1] ++ F[2]`. -/
def frameValue (f : Frame) : BitVec 24 := f.b0 ++ f.b1 ++ f.b2

/-- R41, read back: `F[0] = FV[23:16]`, `F[1] = FV[15:8]`, `F[2] = FV[7:0]`. -/
def frameOfValue (v : BitVec 24) : Frame where
  b0 := v.extractLsb' 16 8
  b1 := v.extractLsb' 8 8
  b2 := v.extractLsb' 0 8

/-- The bytes of a frame as a sequence. -/
def frameBytes (f : Frame) : List Byte := [f.b0, f.b1, f.b2]

/-- R46: an input is accepted only when it has exactly 3 bytes; it is then the frame of R100. -/
def frameOfBytes : List Byte → Option Frame
  | [b0, b1, b2] => some ⟨b0, b1, b2⟩
  | _ => none

/-- R26, R101: `P = F[0][7:0] ++ F[1][7:0] ++ F[2][7:5]`. -/
def crcPayload (f : Frame) : BitVec 19 := f.b0 ++ f.b1 ++ f.b2.extractLsb' 5 3

/-- R27, R101: `W = P ++ INIT`. -/
def workingValue (p : BitVec 19) : BitVec 24 := p ++ Config.init

/-- R44, R42: the bits of a byte as the transport sends them, MSB first. -/
def byteBitsMsbFirst (b : Byte) : List Bool := (List.range 8).map fun i => b.getLsbD (7 - i)

/-- R44: the bits of a frame as the transport sends them, `F[0]` first and `F[2]` last. -/
def wireBits (f : Frame) : List Bool := (frameBytes f).flatMap byteBitsMsbFirst

/-- R69: 0 = read, 1 = write. -/
def directionBit : Direction → BitVec 1
  | .read => 0#1
  | .write => 1#1

/-- R69, read back. -/
def directionOfBit (d : BitVec 1) : Direction := if d = 1#1 then .write else .read

/-- The OUT command frame word `AARRRRRd VVVVVVVV 000CCCCC` (R63, R65, R66). -/
def outFrameWord (a : BitVec 2) (r : BitVec 5) (d : Direction) (v : Byte) (c : Crc) : BitVec 24 :=
  a ++ r ++ directionBit d ++ v ++ 0b000#3 ++ c

/-- The IN command frame word `dRRRRRRR VVVVVVVV 000CCCCC` (R64, R65, R66). -/
def inFrameWord (d : Direction) (r : BitVec 7) (v : Byte) (c : Crc) : BitVec 24 :=
  directionBit d ++ r ++ v ++ 0b000#3 ++ c

/-- The response frame word `SSSSSSSS VVVVVVVV TTTCCCCC` (R67). -/
def responseFrameWord (s v : Byte) (t : BitVec 3) (c : Crc) : BitVec 24 := s ++ v ++ t ++ c

end Sys2Proof.Machine
end

