-- ==== Sys2Proof/Syntax.lean ====
section
/-! DEFINITION. The syntax: one constructor of `Instr` per row of spec/opcode_table.json, the request record of R60,
and the items a caller's program is a list of (R33). -/

namespace Sys2Proof

/-- The rows of spec/opcode_table.json. -/
inductive Instr where
  /-- CRC5 (R107): any byte count can be written (R74). -/
  | crc5 (b : List Byte)
  /-- ENCODE (R130). -/
  | encode (reg : Byte) (dir : Direction) (data : Byte)
  /-- DECODE (R139). -/
  | decode (b : List Byte)
  /-- VERIFY (R142). -/
  | verify (b : List Byte)
  /-- EXCHANGE, a session step and no core request (R74, R214). -/
  | exchange
  /-- READ, a pseudo-operation (R75). -/
  | read (reg : Byte)
  /-- WRITE, a pseudo-operation (R75). -/
  | write (reg : Byte) (data : Byte)
  /-- CHECK, a pseudo-operation (R75). -/
  | check (b0 b1 b2 : Byte)
  /-- FRAME_OUT_READ, `AARRRRR0 VVVVVVVV 000CCCCC` (R63): the fields A, R, V, C. -/
  | frameOutRead (a : BitVec 2) (r : BitVec 5) (v : Byte) (c : Crc)
  /-- FRAME_OUT_WRITE, `AARRRRR1 VVVVVVVV 000CCCCC` (R63): the fields A, R, V, C. -/
  | frameOutWrite (a : BitVec 2) (r : BitVec 5) (v : Byte) (c : Crc)
  /-- FRAME_IN_READ, `0RRRRRRR VVVVVVVV 000CCCCC` (R64): the fields R, V, C. -/
  | frameInRead (r : BitVec 7) (v : Byte) (c : Crc)
  /-- FRAME_IN_WRITE, `1RRRRRRR VVVVVVVV 000CCCCC` (R64): the fields R, V, C. -/
  | frameInWrite (r : BitVec 7) (v : Byte) (c : Crc)
  /-- FRAME_RESPONSE, `SSSSSSSS VVVVVVVV TTTCCCCC` (R67): the fields S, V, T, C. -/
  | frameResponse (s : Byte) (v : Byte) (t : BitVec 3) (c : Crc)
  deriving DecidableEq, Repr

/-- The core's request record (R60); the length of `B` is carried with it. -/
structure Request where
  op   : BitVec 2
  reg  : Byte
  dir  : BitVec 1
  data : Byte
  b    : List Byte
  deriving DecidableEq, Repr

/-- One item of a caller's program, as it is encoded (log 4): a request record (R60), the session step EXCHANGE,
which has no OP value (R74), or a 24-bit frame word given in one of its two roles (R63, R64, R67; log 5, log 7). -/
inductive ProgramItem where
  | request (r : Request)
  | exchange
  | commandFrame (fv : BitVec 24)
  | responseFrame (fv : BitVec 24)
  deriving DecidableEq, Repr

end Sys2Proof
end

