-- ==== Sys2Proof/Decode.lean ====
section
/-! DEFINITION. Decoding a program item into an instruction, total, rejecting by name; and after it the encoder
(spec/30_encoding.md R60 to R69, R73 to R75; spec/opcode_table.json). -/

namespace Sys2Proof

open Sys2Proof.Machine

/-- Why an item has no instruction: a command frame has bits [7:5] = 000 (R66, R71). -/
inductive DecodeError where
  | commandFrameUpperBits
  deriving DecidableEq, Repr

/-- R60, R61: `OP` selects the operation; the fields it does not use are ignored. -/
def decodeRequest (r : Request) : Instr :=
  if r.op = 0b00#2 then .crc5 r.b
  else if r.op = 0b01#2 then .encode r.reg (directionOfBit r.dir) r.data
  else if r.op = 0b10#2 then .decode r.b
  else .verify r.b

/-- The OUT command frame rows: A [23:22], R [21:17], d [16], V [15:8], C [4:0] (R63). -/
def decodeOutFrame (fv : BitVec 24) : Instr :=
  match directionOfBit (fv.extractLsb' 16 1) with
  | .read => .frameOutRead (fv.extractLsb' 22 2) (fv.extractLsb' 17 5) (fv.extractLsb' 8 8) (fv.extractLsb' 0 5)
  | .write => .frameOutWrite (fv.extractLsb' 22 2) (fv.extractLsb' 17 5) (fv.extractLsb' 8 8) (fv.extractLsb' 0 5)

/-- The IN command frame rows: d [23], R [22:16], V [15:8], C [4:0] (R64). -/
def decodeInFrame (fv : BitVec 24) : Instr :=
  match directionOfBit (fv.extractLsb' 23 1) with
  | .read => .frameInRead (fv.extractLsb' 16 7) (fv.extractLsb' 8 8) (fv.extractLsb' 0 5)
  | .write => .frameInWrite (fv.extractLsb' 16 7) (fv.extractLsb' 8 8) (fv.extractLsb' 0 5)

/-- A command frame is read under a VARIANT, since its bits do not say which (R73). -/
def decodeCommandFrame (v : Variant) (fv : BitVec 24) : Except DecodeError Instr :=
  if fv.extractLsb' 5 3 = 0b000#3 then
    match v with
    | .outDriver => .ok (decodeOutFrame fv)
    | .inReceiver => .ok (decodeInFrame fv)
  else .error .commandFrameUpperBits

/-- The response frame row: S [23:16], V [15:8], T [7:5], C [4:0]; every word is one (R67, R71). -/
def decodeResponseFrame (fv : BitVec 24) : Instr :=
  .frameResponse (fv.extractLsb' 16 8) (fv.extractLsb' 8 8) (fv.extractLsb' 5 3) (fv.extractLsb' 0 5)

/-- The instruction of a program item, for a device of variant `v`. -/
def decodeItem (v : Variant) : ProgramItem → Except DecodeError Instr
  | .request r => .ok (decodeRequest r)
  | .exchange => .ok .exchange
  | .commandFrame fv => decodeCommandFrame v fv
  | .responseFrame fv => .ok (decodeResponseFrame fv)

/-- A request record of operation `op` that uses the input buffer only. -/
def bufferRequest (op : BitVec 2) (b : List Byte) : ProgramItem :=
  .request { op := op, reg := 0x00#8, dir := 0#1, data := 0x00#8, b := b }

/-- The ENCODE request record (R60, R61, R69). -/
def encodeRequest (reg : Byte) (dir : Direction) (data : Byte) : ProgramItem :=
  .request { op := 0b01#2, reg := reg, dir := directionBit dir, data := data, b := [] }

/-- The item of an instruction; unused request fields are zero, and a pseudo-operation has the item of its
expansion (R75). -/
def encode : Instr → ProgramItem
  | .crc5 b => bufferRequest 0b00#2 b
  | .encode reg dir data => encodeRequest reg dir data
  | .decode b => bufferRequest 0b10#2 b
  | .verify b => bufferRequest 0b11#2 b
  | .exchange => .exchange
  | .read reg => encodeRequest reg .read 0x00#8
  | .write reg data => encodeRequest reg .write data
  | .check b0 b1 b2 => bufferRequest 0b11#2 [b0, b1, b2]
  | .frameOutRead a r v c => .commandFrame (outFrameWord a r .read v c)
  | .frameOutWrite a r v c => .commandFrame (outFrameWord a r .write v c)
  | .frameInRead r v c => .commandFrame (inFrameWord .read r v c)
  | .frameInWrite r v c => .commandFrame (inFrameWord .write r v c)
  | .frameResponse s v t c => .responseFrame (responseFrameWord s v t c)

/-- R75: the core operation a pseudo-operation expands to; every other instruction is its own expansion. -/
def expandPseudo : Instr → Instr
  | .read reg => .encode reg .read 0x00#8
  | .write reg data => .encode reg .write data
  | .check b0 b1 b2 => .verify [b0, b1, b2]
  | .crc5 b => .crc5 b
  | .encode reg dir data => .encode reg dir data
  | .decode b => .decode b
  | .verify b => .verify b
  | .exchange => .exchange
  | .frameOutRead a r v c => .frameOutRead a r v c
  | .frameOutWrite a r v c => .frameOutWrite a r v c
  | .frameInRead r v c => .frameInRead r v c
  | .frameInWrite r v c => .frameInWrite r v c
  | .frameResponse s v t c => .frameResponse s v t c

/-- The VARIANT whose layout an instruction's item is written in, for the command frame rows. -/
def layoutOf : Instr → Option Variant
  | .frameOutRead _ _ _ _ => some .outDriver
  | .frameOutWrite _ _ _ _ => some .outDriver
  | .frameInRead _ _ _ => some .inReceiver
  | .frameInWrite _ _ _ => some .inReceiver
  | .crc5 _ => none
  | .encode _ _ _ => none
  | .decode _ => none
  | .verify _ => none
  | .exchange => none
  | .read _ => none
  | .write _ _ => none
  | .check _ _ _ => none
  | .frameResponse _ _ _ _ => none

/-- The ENCODE request that the bits of a command frame row spell: register index, direction and data byte (R63, R64,
R73). Every other instruction spells none. -/
def spelledRequest : Instr → Option Instr
  | .frameOutRead _ r v _ => some (.encode (r.setWidth 8) .read v)
  | .frameOutWrite _ r v _ => some (.encode (r.setWidth 8) .write v)
  | .frameInRead r v _ => some (.encode (r.setWidth 8) .read v)
  | .frameInWrite r v _ => some (.encode (r.setWidth 8) .write v)
  | .crc5 _ => none
  | .encode _ _ _ => none
  | .decode _ => none
  | .verify _ => none
  | .exchange => none
  | .read _ => none
  | .write _ _ => none
  | .check _ _ _ => none
  | .frameResponse _ _ _ _ => none

/-- The item of an opcode-table word (log 4, log 7). No bits: EXCHANGE, the one step that has none. Up to a byte: a
request with `OP = w[1:0]` and zero operands, its input the three zero bytes of the row's "len(B) must be 3".
24 bits: a frame, a command frame where bits [7:5] are 000 and a response frame elsewhere. -/
def tableItem (nbits w : Nat) : Option ProgramItem :=
  if nbits = 0 then some .exchange
  else if nbits ≤ 8 then some (bufferRequest (BitVec.ofNat 2 w) [0x00#8, 0x00#8, 0x00#8])
  else if nbits = 24 then
    if (BitVec.ofNat 24 w).extractLsb' 5 3 = 0b000#3 then some (.commandFrame (BitVec.ofNat 24 w))
    else some (.responseFrame (BitVec.ofNat 24 w))
  else none

/-- The instruction the decoder reads from an opcode-table word, under the reset device's VARIANT (log 7). -/
def decodeTableWord (nbits w : Nat) : Option Instr :=
  match tableItem nbits w with
  | none => none
  | some item =>
    match decodeItem Config.resetDevice.variant item with
    | .ok i => some i
    | .error _ => none

end Sys2Proof
end

