-- ==== Sys2Proof/Machine/Flags.lean ====
section
/-! DEFINITION. The core's one flag, the feedback flag, and the rule that reads it (R29, R103). -/

namespace Sys2Proof.Machine

/-- R29, R103: the feedback flag is bit 5 (value 0x20) of the 6-bit window. -/
def feedbackFlag (win : BitVec 6) : Bool := win.getLsbD 5

/-- R103: the window, with `POLY` XORed into it when its feedback flag is set. -/
def feedbackRule (win : BitVec 6) : BitVec 6 := if feedbackFlag win then win ^^^ Config.poly else win

end Sys2Proof.Machine
end

