-- ==== Sys2Proof/Machine/Engine.lean ====
section
/-! DEFINITION. The CRC-5 Engine (spec/40_crc5.md R101 to R107): its 19 steps over the working value. The working
value and the accumulator exist only inside one operation (R27, R28, R241; log 14). -/

namespace Sys2Proof.Machine

/-- R104: the window of step `k` (steps are numbered 1 to 19) over the accumulator `acc` before it. -/
def crcWindow (w : BitVec 24) (acc : BitVec 6) (k : Nat) : BitVec 6 :=
  if k = 1 then acc else acc.extractLsb' 0 5 ++ w.extractLsb' (19 - k) 1

/-- The accumulator after `k` steps: R102 before step 1, then R103 and R104 at each step. -/
def crcAcc (w : BitVec 24) : Nat → BitVec 6
  | 0 => w.extractLsb' 18 6
  | k + 1 => feedbackRule (crcWindow w (crcAcc w k) (k + 1))

/-- R105, R106: the checksum of a 19-bit payload is `ACC[4:0]` after step 19. -/
def crcOfPayload (p : BitVec 19) : Crc := (crcAcc (workingValue p) 19).extractLsb' 0 5

/-- R107 on a frame: the checksum of its payload. -/
def crcOfFrame (f : Frame) : Crc := crcOfPayload (crcPayload f)

end Sys2Proof.Machine
end

