-- ==== Sys2Proof/Machine/Operands.lean ====
section
/-! DEFINITION. Operand assembly for ENCODE (R68, R131 to R135) and the fixed fields of a response (R67, R139). -/

namespace Sys2Proof.Machine

/-- R131: the number of indices the variant's register field holds, 5 bits under OUT and 7 bits under IN. -/
def registerLimit : Variant → Nat
  | .outDriver => 32
  | .inReceiver => 128

/-- R131: ENCODE accepts a register index in `REGSET` that fits the variant's field. -/
def registerAccepted (cfg : DeviceConfig) (reg : Byte) : Bool :=
  decide (reg.toNat < registerLimit cfg.variant) && decide (reg ∈ cfg.regset)

/-- R132: `(CHIPADDR[1:0] << 6) | (REG[4:0] << 1) | DIR`. -/
def outControlByte (chip : BitVec 2) (reg : Byte) (dir : Direction) : Byte :=
  (chip.setWidth 8 <<< 6) ||| ((reg.extractLsb' 0 5).setWidth 8 <<< 1) ||| (directionBit dir).setWidth 8

/-- R133: `(DIR << 7) | REG[6:0]`. -/
def inControlByte (reg : Byte) (dir : Direction) : Byte :=
  ((directionBit dir).setWidth 8 <<< 7) ||| (reg.extractLsb' 0 7).setWidth 8

/-- The control byte of the configured variant (R130); under IN the chip address is ignored (R22). -/
def controlByte (cfg : DeviceConfig) (reg : Byte) (dir : Direction) : Byte :=
  match cfg.variant with
  | .outDriver => outControlByte cfg.chipAddr reg dir
  | .inReceiver => inControlByte reg dir

/-- R135: the checksum is computed with byte 2 zero and placed in its bits [4:0], bits [7:5] staying 000. -/
def sealFrame (b0 b1 : Byte) : Frame := ⟨b0, b1, 0b000#3 ++ crcOfFrame ⟨b0, b1, 0x00#8⟩⟩

/-- The command frame of R130: control byte, data byte as given for both directions (R134), checksum byte. -/
def buildFrame (cfg : DeviceConfig) (reg : Byte) (dir : Direction) (data : Byte) : Frame :=
  sealFrame (controlByte cfg reg dir) data

/-- R67: `ST0 = F[0]`. -/
def responseSt0 (f : Frame) : Byte := f.b0

/-- R67: `RDATA = F[1]`. -/
def responseData (f : Frame) : Byte := f.b1

/-- R67: `ST2 = F[2][7:5]`. -/
def responseSt2 (f : Frame) : BitVec 3 := f.b2.extractLsb' 5 3

/-- R67: `RXCRC = F[2][4:0]`. -/
def responseCrc (f : Frame) : Crc := f.b2.extractLsb' 0 5

end Sys2Proof.Machine
end

