-- ==== Sys2Proof/Machine/State.lean ====
section
/-! DEFINITION. The state: one session per device instance (R31 to R34), the configuration it was created with (R21 to
R24), the caller's program and what was delivered to the caller (R33, R62, R214); and the model's own inputs and
observations (the transport script, the draw counter, the turn list, the bus log; log 2, log 9, log 10). -/

namespace Sys2Proof.Machine

/-- The statuses of R200. -/
inductive Status where
  | ok
  | invalidInputLength
  | invalidRegister
  | transportFailure
  | checksumMismatch
  | protocolHazard
  deriving DecidableEq, Repr

/-- A response record (R62), with the RESP field that EXCHANGE delivers (R214). A field that the operation does not
produce has no value: it is `none`. -/
structure Response where
  status : Status
  frame  : Option Frame := none
  crc    : Option Crc := none
  rdata  : Option Byte := none
  st0    : Option Byte := none
  st2    : Option (BitVec 3) := none
  rxcrc  : Option Crc := none
  resp   : Option Frame := none
  deriving DecidableEq, Repr

/-- The two errors that fault a session (R32). -/
inductive SessionError where
  | invalidInputLength
  | protocolHazard
  deriving DecidableEq, Repr

/-- A fault record: the error and the index of the program step that raised it (R32). -/
structure FaultRecord where
  error    : SessionError
  position : Nat
  deriving DecidableEq, Repr

/-- What an exchange does on the bus (R52, R212, R245): chip-select asserted, the full-duplex exchange, chip-select
deasserted. -/
inductive BusEvent where
  | chipSelectAssert
  | exchange (sent : Frame) (answer : TransportAnswer)
  | chipSelectDeassert
  deriving DecidableEq, Repr

/-- One caller driving one device instance: the configuration (R21 to R24), the session state (R31 to R33), the
caller's program, the responses delivered so far (newest last), and the answers the transport is scripted to give
(the model's own input, log 2). -/
structure Session where
  config    : DeviceConfig
  program   : List ProgramItem
  pc        : Nat
  pending   : Option Frame
  fault     : List FaultRecord
  delivered : List Response
  answers   : List TransportAnswer
  deriving DecidableEq, Repr

/-- The machine: the session whose step is next, the sessions of the other device instances (R34, R213), and the
model's own turn list, bus log and draw counter. -/
structure State where
  dev    : Session
  others : List Session
  turns  : List Nat
  bus    : List BusEvent
  draws  : Nat
  deriving DecidableEq, Repr

/-- Why a step does not exist. -/
inductive Fault where
  /-- Raised by every meaning and by `step`: the session's `fault` list is not empty, so it takes no further step
  (R32, R209, R214). Safe. -/
  | sessionFaulted
  /-- Raised by `step`: the position is past the program's last step, so the run has ended (R214). Safe. -/
  | endOfProgram
  deriving DecidableEq, Repr

/-- Why a step has no meaning in the model. -/
inductive Refusal where
  /-- Raised by an arm of `exec` that has no meaning yet. Safe. -/
  | notModelled (mnemonic : String)
  /-- Raised by `step`: a command frame item whose bits [7:5] are not 000 (R66; log 7). Safe. -/
  | malformedCommandFrame
  /-- Raised by the command frame rows: a frame in the layout of the other VARIANT, which spells no request of this
  device (R73; log 6). Safe. -/
  | frameOfOtherVariant
  /-- Raised by the OUT command frame rows: a frame whose chip address is not this device's, which spells a request
  of another device (R22, R73; log 6). Safe. -/
  | frameOfOtherChip
  deriving DecidableEq, Repr

/-- R240, R242, R243: the session of a newly created device instance: the given configuration, program and transport
script, `pending = none`, `fault` empty, `pc = 0`, nothing delivered. -/
def newSession (config : DeviceConfig) (program : List ProgramItem) (answers : List TransportAnswer) : Session where
  config := config
  program := program
  pc := 0
  pending := none
  fault := []
  delivered := []
  answers := answers

/-- The machine right after reset (R240 to R242): one new session with no program, no scripted answer, and the
configuration of log 1; no other device, no turns, nothing on the bus, no free answer drawn. -/
def State.reset : State where
  dev := newSession Config.resetDevice [] []
  others := []
  turns := []
  bus := []
  draws := 0

end Sys2Proof.Machine
end

