-- ==== Sys2Proof/Machine/Requests.lean ====
section
/-! DEFINITION. The core's four operations as pure functions of their inputs and the configuration (R30, R107, R130,
R139, R142), and the numeric status codes (R200). -/

namespace Sys2Proof.Machine

/-- R200: the code of a status, 3 bits. -/
def statusCode : Status → BitVec 3
  | .ok => 0#3
  | .invalidInputLength => 1#3
  | .invalidRegister => 2#3
  | .transportFailure => 3#3
  | .checksumMismatch => 4#3
  | .protocolHazard => 5#3

/-- The status that a fault record stands for (R201, R205). -/
def errorStatus : SessionError → Status
  | .invalidInputLength => .invalidInputLength
  | .protocolHazard => .protocolHazard

/-- CRC5 (R107): OK and the checksum of a 3-byte input, InvalidInputLength and no field of any other (R100). -/
def coreCrc5 (b : List Byte) : Response :=
  match frameOfBytes b with
  | none => { status := .invalidInputLength }
  | some f => { status := .ok, crc := some (crcOfFrame f) }

/-- ENCODE (R130): OK and the command frame of an accepted register index, InvalidRegister and no field of any
other (R131). -/
def coreEncode (cfg : DeviceConfig) (reg : Byte) (dir : Direction) (data : Byte) : Response :=
  if registerAccepted cfg reg then { status := .ok, frame := some (buildFrame cfg reg dir data) }
  else { status := .invalidRegister }

/-- DECODE (R139): the raw fields of a 3-byte response, no checksum check; InvalidInputLength of any other. -/
def coreDecode (b : List Byte) : Response :=
  match frameOfBytes b with
  | none => { status := .invalidInputLength }
  | some f =>
    { status := .ok, rdata := some (responseData f), st0 := some (responseSt0 f), st2 := some (responseSt2 f),
      rxcrc := some (responseCrc f) }

/-- VERIFY (R142): the recomputed checksum and the raw fields, OK when the checksum is the one received and
ChecksumMismatch, with every field, when it is not (R204); InvalidInputLength of any other length. -/
def coreVerify (b : List Byte) : Response :=
  match frameOfBytes b with
  | none => { status := .invalidInputLength }
  | some f =>
    { status := if crcOfFrame f = responseCrc f then .ok else .checksumMismatch, crc := some (crcOfFrame f),
      rdata := some (responseData f), st0 := some (responseSt0 f), st2 := some (responseSt2 f),
      rxcrc := some (responseCrc f) }

/-- What EXCHANGE delivers of the transport's answer (R203, R214). -/
def exchangeResponse : TransportAnswer → Response
  | .response g => { status := .ok, resp := some g }
  | .failure => { status := .transportFailure }

end Sys2Proof.Machine
end

