-- ==== Sys2Proof/Machine/Ops.lean ====
section
/-! DEFINITION. The shared operations of the session step (spec/60_exceptions.md R201 to R207, R214): advancing,
delivering, recording a fault, the transport's answer, the bus bracket, fetching the next item, and whose turn it
is. -/

namespace Sys2Proof.Machine

/-- R33, R214: `pc <- pc + 1`. -/
def advance (s : State) : State := { s with dev := { s.dev with pc := s.dev.pc + 1 } }

/-- R207, R214: `deliver out` to the caller. -/
def deliver (r : Response) (s : State) : State :=
  { s with dev := { s.dev with delivered := s.dev.delivered ++ [r] } }

/-- R31: `pending <- p`. -/
def setPending (p : Option Frame) (s : State) : State := { s with dev := { s.dev with pending := p } }

/-- R201, R205, R214: `fault <- fault ++ [(e, pc)]`. -/
def recordFault (e : SessionError) (s : State) : State :=
  { s with dev := { s.dev with fault := s.dev.fault ++ [⟨e, s.dev.pc⟩] } }

/-- TAKING AN EXCEPTION (R207): a session fault is recorded and the session stops; nothing else changes, no state is
saved, and no handler exists. There is no return from one (R209). -/
def raiseFault (e : SessionError) (s : State) : Host.Outcome State Fault Refusal := .next (recordFault e s)

/-- A step that does not fault (R33, R206, R214): `pc` advances and one response is delivered. -/
def completeStep (r : Response) (s : State) : Host.Outcome State Fault Refusal := .next (deliver r (advance s))

/-- R32, R214: "If `fault` is non-empty, there is no step." -/
def ifRunning (s : State) (next : Host.Outcome State Fault Refusal) : Host.Outcome State Fault Refusal :=
  if s.dev.fault = [] then next else .fault .sessionFaulted

/-- R214, a CRC5, DECODE or VERIFY step whose core operation answers `r`: InvalidInputLength faults the session
(R201), anything else is delivered; `pending` is unchanged. -/
def issueChecked (r : Response) (s : State) : Host.Outcome State Fault Refusal :=
  ifRunning s (if r.status = .invalidInputLength then raiseFault .invalidInputLength s else completeStep r s)

/-- R214, an ENCODE step: ProtocolHazard while a frame is pending (R205, R244), before the operation runs (R206);
otherwise a successful ENCODE sets `pending` (R31), and InvalidRegister leaves it (R202). -/
def issueEncode (reg : Byte) (dir : Direction) (data : Byte) (s : State) : Host.Outcome State Fault Refusal :=
  ifRunning s
    (if s.dev.pending = none then
      let r := coreEncode s.dev.config reg dir data
      completeStep r (if r.status = .ok then setPending r.frame s else s)
    else raiseFault .protocolHazard s)

/-- A command frame row as a session step: the ENCODE request its bits spell under the row's layout `v` (R73), for
the device whose layout, and under OUT whose chip address, it is written with (log 5, log 6). Its checksum field is
no operand: ENCODE computes the checksum afresh (R137). -/
def issueFrame (v : Variant) (chip : Option (BitVec 2)) (reg : Byte) (dir : Direction) (data : Byte) (s : State) :
    Host.Outcome State Fault Refusal :=
  ifRunning s
    (if s.dev.config.variant ≠ v then .refused .frameOfOtherVariant
    else if chip ≠ none ∧ chip ≠ some s.dev.config.chipAddr then .refused .frameOfOtherChip
    else issueEncode reg dir data s)

/-- R216: the transport's answer to the next exchange: the script's next answer, and where the script has none a
free value (log 2). -/
def transportAnswer (s : State) : TransportAnswer :=
  match s.dev.answers with
  | a :: _ => a
  | [] => Config.freeAnswer s.draws

/-- The script or the draw counter moves past the answer that `transportAnswer` gave (log 2). -/
def consumeAnswer (s : State) : State :=
  match s.dev.answers with
  | _ :: rest => { s with dev := { s.dev with answers := rest } }
  | [] => { s with draws := s.draws + 1 }

/-- R52, R245: one whole bracketed transaction, in order. -/
def busBracket (sent : Frame) (a : TransportAnswer) : List BusEvent :=
  [.chipSelectAssert, .exchange sent a, .chipSelectDeassert]

/-- The transaction goes on the bus as one indivisible step (R48, R52). -/
def logBus (sent : Frame) (a : TransportAnswer) (s : State) : State :=
  { s with bus := s.bus ++ busBracket sent a }

/-- R214, the EXCHANGE step: ProtocolHazard with nothing pending (R205, R246); otherwise `pending` is sent, cleared
whether the exchange succeeded or failed (R31), and the answer delivered (R203). -/
def issueExchange (s : State) : Host.Outcome State Fault Refusal :=
  ifRunning s
    (match s.dev.pending with
    | none => raiseFault .protocolHazard s
    | some f =>
      completeStep (exchangeResponse (transportAnswer s))
        (setPending none (logBus f (transportAnswer s) (consumeAnswer s))))

/-- R33: the item at the session's position. -/
def fetchItem (s : State) : Option ProgramItem := s.dev.program[s.dev.pc]?

/-- R51, R213: whose step is next. A turn 0, or no turn, keeps the current session; a turn k + 1 makes the k-th of
the others the current one, in exchange (log 9). -/
def takeTurn (s : State) : State :=
  match s.turns with
  | [] => s
  | 0 :: rest => { s with turns := rest }
  | (k + 1) :: rest =>
    match s.others[k]? with
    | none => { s with turns := rest }
    | some o => { s with dev := o, others := s.others.set k s.dev, turns := rest }

/-- The program with `item` at position `n`; a shorter program is filled up with EXCHANGE steps first. -/
def placeItem : List ProgramItem → Nat → ProgramItem → List ProgramItem
  | [], 0, item => [item]
  | [], n + 1, item => .exchange :: placeItem [] n item
  | _ :: rest, 0, item => item :: rest
  | x :: rest, n + 1, item => x :: placeItem rest n item

end Sys2Proof.Machine
end

