-- ==== Sys2Proof/Machine/Crc.lean ====
section
/-! DEFINITION. The CRC-5 family: CRC5 (R107, R214). -/

namespace Sys2Proof.Machine

/-- CRC5 as a session step (R107, R214). -/
def execCrc5 (b : List Byte) (s : State) : Host.Outcome State Fault Refusal := issueChecked (coreCrc5 b) s

end Sys2Proof.Machine
end

