-- ==== Sys2Proof/Machine/Encoder.lean ====
section
/-! DEFINITION. The Frame Encoder family: ENCODE, DECODE and VERIFY (R130, R139, R142, R214). -/

namespace Sys2Proof.Machine

/-- ENCODE as a session step (R130, R214). -/
def execEncode (reg : Byte) (dir : Direction) (data : Byte) (s : State) : Host.Outcome State Fault Refusal :=
  issueEncode reg dir data s

/-- DECODE as a session step (R139, R214). -/
def execDecode (b : List Byte) (s : State) : Host.Outcome State Fault Refusal := issueChecked (coreDecode b) s

/-- VERIFY as a session step (R142, R214). -/
def execVerify (b : List Byte) (s : State) : Host.Outcome State Fault Refusal := issueChecked (coreVerify b) s

end Sys2Proof.Machine
end

