-- ==== Sys2Proof/Machine/FramePatterns.lean ====
section
/-! DEFINITION. The frame rows of spec/opcode_table.json as session steps (R63, R64, R67, R73, R130, R139; log 5,
log 6): a command frame is the ENCODE request it spells, a response frame is the DECODE of its three bytes. -/

namespace Sys2Proof.Machine

/-- FRAME_OUT_READ: ENCODE of register R, read, data V, at chip address A (R63, R73, R130). -/
def execFrameOutRead (a : BitVec 2) (r : BitVec 5) (v : Byte) (s : State) : Host.Outcome State Fault Refusal :=
  issueFrame .outDriver (some a) (r.setWidth 8) .read v s

/-- FRAME_OUT_WRITE: ENCODE of register R, write, data V, at chip address A (R63, R73, R130). -/
def execFrameOutWrite (a : BitVec 2) (r : BitVec 5) (v : Byte) (s : State) : Host.Outcome State Fault Refusal :=
  issueFrame .outDriver (some a) (r.setWidth 8) .write v s

/-- FRAME_IN_READ: ENCODE of register R, read, data V (R64, R73, R130). -/
def execFrameInRead (r : BitVec 7) (v : Byte) (s : State) : Host.Outcome State Fault Refusal :=
  issueFrame .inReceiver none (r.setWidth 8) .read v s

/-- FRAME_IN_WRITE: ENCODE of register R, write, data V (R64, R73, R130). -/
def execFrameInWrite (r : BitVec 7) (v : Byte) (s : State) : Host.Outcome State Fault Refusal :=
  issueFrame .inReceiver none (r.setWidth 8) .write v s

/-- FRAME_RESPONSE: DECODE of the frame's three bytes (R67, R139). -/
def execFrameResponse (st0 rdata : Byte) (st2 : BitVec 3) (rxcrc : Crc) (s : State) :
    Host.Outcome State Fault Refusal :=
  issueChecked (coreDecode (frameBytes (frameOfValue (responseFrameWord st0 rdata st2 rxcrc)))) s

end Sys2Proof.Machine
end

