-- ==== Sys2Proof/Machine/Pseudo.lean ====
section
/-! DEFINITION. The pseudo-operations READ, WRITE and CHECK, each its expansion (R75). -/

namespace Sys2Proof.Machine

/-- `READ reg` is `ENCODE reg, R, 0x00` (R75). -/
def execRead (reg : Byte) (s : State) : Host.Outcome State Fault Refusal := issueEncode reg .read 0x00#8 s

/-- `WRITE reg, data` is `ENCODE reg, W, data` (R75). -/
def execWrite (reg data : Byte) (s : State) : Host.Outcome State Fault Refusal := issueEncode reg .write data s

/-- `CHECK b0, b1, b2` is `VERIFY b0, b1, b2` (R75). -/
def execCheck (b0 b1 b2 : Byte) (s : State) : Host.Outcome State Fault Refusal :=
  issueChecked (coreVerify [b0, b1, b2]) s

end Sys2Proof.Machine
end

