-- ==== Sys2Proof/Machine/Transport.lean ====
section
/-! DEFINITION. The session step EXCHANGE (R214). -/

namespace Sys2Proof.Machine

/-- EXCHANGE (R203, R205, R214, R216). -/
def execExchange (s : State) : Host.Outcome State Fault Refusal := issueExchange s

end Sys2Proof.Machine
end

