-- ==== Sys2Proof/Machine/Dispatch.lean ====
section
/-! DEFINITION. One arm per constructor of Instr. -/

namespace Sys2Proof.Machine

/-- The meaning of an instruction in a state. -/
def exec (i : Instr) (s : State) : Host.Outcome State Fault Refusal :=
  match i with
  | .crc5 b => Sys2Proof.Machine.execCrc5 b s
  | .encode reg dir data => Sys2Proof.Machine.execEncode reg dir data s
  | .decode b => Sys2Proof.Machine.execDecode b s
  | .verify b => Sys2Proof.Machine.execVerify b s
  | .exchange => Sys2Proof.Machine.execExchange s
  | .read reg => Sys2Proof.Machine.execRead reg s
  | .write reg data => Sys2Proof.Machine.execWrite reg data s
  | .check b0 b1 b2 => Sys2Proof.Machine.execCheck b0 b1 b2 s
  | .frameOutRead a r v _ => Sys2Proof.Machine.execFrameOutRead a r v s
  | .frameOutWrite a r v _ => Sys2Proof.Machine.execFrameOutWrite a r v s
  | .frameInRead r v _ => Sys2Proof.Machine.execFrameInRead r v s
  | .frameInWrite r v _ => Sys2Proof.Machine.execFrameInWrite r v s
  | .frameResponse st0 rdata st2 rxcrc => Sys2Proof.Machine.execFrameResponse st0 rdata st2 rxcrc s

end Sys2Proof.Machine
end

