-- ==== Sys2Proof/Machine/Step.lean ====
section
/-! DEFINITION. One step of the machine: one session step of the session whose turn it is (R33, R213, R214). -/

namespace Sys2Proof.Machine

/-- One step. A faulted session has none (R32), nor has one whose program is over (R214); otherwise the item at the
session's position is decoded under the device's VARIANT (R73) and its instruction runs. -/
def step (s : State) : Host.Outcome State Fault Refusal :=
  if (takeTurn s).dev.fault = [] then
    match fetchItem (takeTurn s) with
    | none => .fault .endOfProgram
    | some item =>
      match decodeItem (takeTurn s).dev.config.variant item with
      | .error .commandFrameUpperBits => .refused .malformedCommandFrame
      | .ok i => exec i (takeTurn s)
  else .fault .sessionFaulted

/-- The state with the opcode-table word's item at the current session's position, the session able to step and no
turn taken first (log 3): the caller loads a program from outside. Where the word is no item, the state is kept. -/
def State.withFetchWord (s : State) (nbits w : Nat) : State :=
  match tableItem nbits w with
  | none => s
  | some item =>
    { s with
      turns := []
      dev := { s.dev with fault := [], program := placeItem s.dev.program s.dev.pc item } }

end Sys2Proof.Machine
end

