-- ==== Sys2Proof/Machine/Assembler.lean ====
section
/-! DEFINITION. The assembler syntax of requests and its pseudo-operations (R74, R75): a line is a mnemonic and its
operands, byte operands written `0xNN` and directions `R` or `W` (log 17). -/

namespace Sys2Proof.Machine

/-- An operand of a line (R74). -/
inductive AsmOperand where
  | byte (b : Byte)
  | dir (d : Direction)
  deriving DecidableEq, Repr

/-- One request per line: a mnemonic, then its operands (R74). -/
structure AsmLine where
  mnemonic : String
  operands : List AsmOperand
  deriving DecidableEq, Repr

/-- The bytes of a list of byte operands, any count (R74); no value when one of them is a direction. -/
def operandBytes : List AsmOperand → Option (List Byte)
  | [] => some []
  | .byte b :: rest => (operandBytes rest).map (b :: ·)
  | .dir _ :: _ => none

/-- The instruction a line is written for (R74, R75); no value when no line of the syntax is of that form. -/
def assembleLine (l : AsmLine) : Option Instr :=
  if l.mnemonic = "CRC5" then (operandBytes l.operands).map .crc5
  else if l.mnemonic = "DECODE" then (operandBytes l.operands).map .decode
  else if l.mnemonic = "VERIFY" then (operandBytes l.operands).map .verify
  else if l.mnemonic = "ENCODE" then
    match l.operands with
    | [.byte reg, .dir d, .byte data] => some (.encode reg d data)
    | _ => none
  else if l.mnemonic = "EXCHANGE" then
    match l.operands with
    | [] => some .exchange
    | _ => none
  else if l.mnemonic = "READ" then
    match l.operands with
    | [.byte reg] => some (.read reg)
    | _ => none
  else if l.mnemonic = "WRITE" then
    match l.operands with
    | [.byte reg, .byte data] => some (.write reg data)
    | _ => none
  else if l.mnemonic = "CHECK" then
    match l.operands with
    | [.byte b0, .byte b1, .byte b2] => some (.check b0 b1 b2)
    | _ => none
  else none

/-- The line an instruction is written as; the frame rows have no assembler syntax (R74). -/
def asmLineOf : Instr → Option AsmLine
  | .crc5 b => some ⟨"CRC5", b.map .byte⟩
  | .encode reg dir data => some ⟨"ENCODE", [.byte reg, .dir dir, .byte data]⟩
  | .decode b => some ⟨"DECODE", b.map .byte⟩
  | .verify b => some ⟨"VERIFY", b.map .byte⟩
  | .exchange => some ⟨"EXCHANGE", []⟩
  | .read reg => some ⟨"READ", [.byte reg]⟩
  | .write reg data => some ⟨"WRITE", [.byte reg, .byte data]⟩
  | .check b0 b1 b2 => some ⟨"CHECK", [.byte b0, .byte b1, .byte b2]⟩
  | .frameOutRead _ _ _ _ => none
  | .frameOutWrite _ _ _ _ => none
  | .frameInRead _ _ _ => none
  | .frameInWrite _ _ _ => none
  | .frameResponse _ _ _ _ => none

/-- One hexadecimal digit. -/
def hexDigit (n : Nat) : String :=
  (["0", "1", "2", "3", "4", "5", "6", "7", "8", "9", "a", "b", "c", "d", "e", "f"][n]?).getD ""

/-- A byte operand is `0xNN`, a direction `R` or `W` (R74). -/
def operandText : AsmOperand → String
  | .byte b => "0x" ++ hexDigit (b.toNat / 16) ++ hexDigit (b.toNat % 16)
  | .dir .read => "R"
  | .dir .write => "W"

/-- The text of a line: the mnemonic, then its operands separated by commas (R74). -/
def lineText (l : AsmLine) : String :=
  match l.operands with
  | [] => l.mnemonic
  | o :: rest => rest.foldl (fun t x => t ++ ", " ++ operandText x) (l.mnemonic ++ " " ++ operandText o)

end Sys2Proof.Machine
end

