-- ==== Sys2Proof/WellFormed.lean ====
section
/-! DEFINITION. Which terms of the syntax are well formed, and which requests are legal for a configuration (R70). -/

namespace Sys2Proof

open Sys2Proof.Machine

/-- A command frame row names a frame the core produces, so its C field is the CRC-5 of the frame (R66, R136).
Every request is well formed: any byte count can be written (R74), and an illegal one is answered with its error
(R70). Every response frame is well formed (R71). -/
def Instr.wellFormed : Instr → Bool
  | .crc5 _ => true
  | .encode _ _ _ => true
  | .decode _ => true
  | .verify _ => true
  | .exchange => true
  | .read _ => true
  | .write _ _ => true
  | .check _ _ _ => true
  | .frameOutRead a r v c => c == crcOfFrame (frameOfValue (outFrameWord a r .read v c))
  | .frameOutWrite a r v c => c == crcOfFrame (frameOfValue (outFrameWord a r .write v c))
  | .frameInRead r v c => c == crcOfFrame (frameOfValue (inFrameWord .read r v c))
  | .frameInWrite r v c => c == crcOfFrame (frameOfValue (inFrameWord .write r v c))
  | .frameResponse _ _ _ _ => true

/-- R70: an ENCODE is legal when R131 accepts its register index, a CRC5, DECODE or VERIFY when its input has
exactly 3 bytes; no other request is illegal. -/
def Instr.legal (cfg : DeviceConfig) : Instr → Bool
  | .crc5 b => b.length == 3
  | .encode reg _ _ => registerAccepted cfg reg
  | .decode b => b.length == 3
  | .verify b => b.length == 3
  | .exchange => true
  | .read reg => registerAccepted cfg reg
  | .write reg _ => registerAccepted cfg reg
  | .check _ _ _ => true
  | .frameOutRead _ r _ _ => registerAccepted cfg (r.setWidth 8)
  | .frameOutWrite _ r _ _ => registerAccepted cfg (r.setWidth 8)
  | .frameInRead r _ _ => registerAccepted cfg (r.setWidth 8)
  | .frameInWrite r _ _ => registerAccepted cfg (r.setWidth 8)
  | .frameResponse _ _ _ _ => true

end Sys2Proof
end

