-- ==== Sys2Proof/Safety.lean ====
section
/-! DEFINITION. The terms in which claims are made: complete frames (R136, R246), a bracketed bus (R52, R245), the
session and machine invariants, clean runs (R214), and the GF(2) reading of the checksum (R109 to R111). -/

namespace Sys2Proof.Machine

/-- R136: the checksum byte of a frame built by ENCODE: bits [4:0] are the CRC-5 of the frame, bits [7:5] are 000. -/
def FrameComplete (f : Frame) : Prop := responseCrc f = crcOfFrame f ∧ responseSt2 f = 0b000#3

/-- R52, R245: a bus log that is a sequence of whole bracketed transactions, none interleaved with another. -/
def wellBracketed : List BusEvent → Bool
  | [] => true
  | .chipSelectAssert :: .exchange _ _ :: .chipSelectDeassert :: rest => wellBracketed rest
  | _ => false

/-- The frames sent, in bus order. -/
def sentFrames : List BusEvent → List Frame
  | [] => []
  | .exchange f _ :: rest => f :: sentFrames rest
  | .chipSelectAssert :: rest => sentFrames rest
  | .chipSelectDeassert :: rest => sentFrames rest

/-- What holds of a session at every step: its pending frame and every frame it was delivered are complete (R136,
R246); it holds at most one fault record, raised at its position (R32, R33); every step so far delivered one
response (R206, R214), none of them with a status that faults a session (R201, R205); and its position has not run
past its program (R33). -/
structure Session.Inv (d : Session) : Prop where
  pendingComplete : ∀ f, d.pending = some f → FrameComplete f
  framesComplete : ∀ r ∈ d.delivered, ∀ f, r.frame = some f → FrameComplete f
  oneFault : d.fault.length ≤ 1
  faultPosition : ∀ r ∈ d.fault, r.position = d.pc
  oneResponsePerStep : d.delivered.length = d.pc
  noFatalDelivered : ∀ r ∈ d.delivered, r.status ≠ .invalidInputLength ∧ r.status ≠ .protocolHazard
  withinProgram : d.pc ≤ d.program.length

/-- What holds of the machine at every step: the invariant of every session, a bracketed bus (R52), and only complete
frames sent (R136, R246). -/
structure State.Inv (s : State) : Prop where
  dev : Session.Inv s.dev
  others : ∀ d ∈ s.others, Session.Inv d
  bracketed : wellBracketed s.bus = true
  sentComplete : ∀ f ∈ sentFrames s.bus, FrameComplete f

/-- R214: "The end of a run is reached when `pc` equals the program's length with `fault` empty, or as soon as
`fault` is non-empty." -/
def runEnded (d : Session) : Bool := d.fault != [] || d.pc == d.program.length

/-- R214: "A run is *clean* if it ends with `fault` empty." -/
def cleanEnd (d : Session) : Bool := d.fault == [] && d.pc == d.program.length

/-- `k` steps of the machine, stopping where a step does not exist or has no meaning. -/
def runSteps : Nat → State → Host.Outcome State Fault Refusal
  | 0, s => .next s
  | k + 1, s =>
    match step s with
    | .next t => runSteps k t
    | .fault r => .fault r
    | .refused r => .refused r

/-- The caller's contract over a whole program (R244, R246, R201; log 5, log 6), for a session that has a frame pending or
not: every input has 3 bytes, no ENCODE while a frame is pending, no EXCHANGE without one, and an OUT frame row only
of this device's chip address. -/
def keepsContract (cfg : DeviceConfig) : Bool → List Instr → Bool
  | _, [] => true
  | pend, i :: rest =>
    match i with
    | .crc5 b => b.length == 3 && keepsContract cfg pend rest
    | .decode b => b.length == 3 && keepsContract cfg pend rest
    | .verify b => b.length == 3 && keepsContract cfg pend rest
    | .check _ _ _ => keepsContract cfg pend rest
    | .frameResponse _ _ _ _ => keepsContract cfg pend rest
    | .encode reg _ _ => !pend && keepsContract cfg (registerAccepted cfg reg) rest
    | .read reg => !pend && keepsContract cfg (registerAccepted cfg reg) rest
    | .write reg _ => !pend && keepsContract cfg (registerAccepted cfg reg) rest
    | .frameOutRead a r _ _ =>
      a == cfg.chipAddr && !pend && keepsContract cfg (registerAccepted cfg (r.setWidth 8)) rest
    | .frameOutWrite a r _ _ =>
      a == cfg.chipAddr && !pend && keepsContract cfg (registerAccepted cfg (r.setWidth 8)) rest
    | .frameInRead r _ _ => !pend && keepsContract cfg (registerAccepted cfg (r.setWidth 8)) rest
    | .frameInWrite r _ _ => !pend && keepsContract cfg (registerAccepted cfg (r.setWidth 8)) rest
    | .exchange => pend && keepsContract cfg false rest

/-- The product of two polynomials over GF(2), bit i the coefficient of x^i, in 24 bits (R109): the sum of the
shifts of `b` at the set bits of `a`. -/
def gf2Mul (a b : BitVec 24) : BitVec 24 :=
  (List.range 24).foldl (fun acc i => if a.getLsbD i then acc ^^^ (b <<< i) else acc) 0#24

/-- The payload with bit `i` set and every other clear. -/
def payloadBit (i : Nat) : BitVec 19 := 1#19 <<< i

/-- Whether an odd number of the 19 payload bits is set. -/
def oddWeight (p : BitVec 19) : Bool := (List.range 19).foldl (fun acc i => acc ^^ p.getLsbD i) false

end Sys2Proof.Machine
end

