-- ==== Sys2Proof/Certificates/Slice0/Obligations.lean ====
section
/-! DEFINITION. The statements for the provers. -/

open Sys2Proof Sys2Proof.Machine

/-! ## Reset, invariant, whole-machine rules -/

/-- R242: a new session has `pending = none`, `fault` empty and `pc = 0`, whatever it is created with; the session of
the reset state is one. -/
def Obligations.ANewSessionStartsEmpty : Prop :=
  (∀ (cfg : DeviceConfig) (p : List ProgramItem) (a : List TransportAnswer),
    (newSession cfg p a).pending = none ∧ (newSession cfg p a).fault = [] ∧ (newSession cfg p a).pc = 0 ∧
      (newSession cfg p a).config = cfg) ∧
  State.reset.dev.pending = none ∧ State.reset.dev.fault = [] ∧ State.reset.dev.pc = 0

/-- The invariant holds in the reset state. -/
def Obligations.ResetMeetsTheInvariant : Prop := State.Inv State.reset

/-- Every step of the machine keeps the invariant: pending and sent frames are complete (R136, R246), the bus is a
sequence of whole transactions (R52, R245), a session has at most one fault record, raised at its position (R32),
and one response delivered for every step taken (R206). The bus log is the model's (log 10), and that a step that
faults delivers nothing is its reading of R214 (log 11). -/
def Obligations.EveryStepKeepsTheInvariant : Prop :=
  ∀ s t : State, State.Inv s → step s = .next t → State.Inv t

/-- R32: the fault list only grows, by one record that names the position of the step that raised it, and a faulted
session takes no further step. -/
def Obligations.FaultListOnlyGrowsAndStopsTheSession : Prop :=
  (∀ (i : Instr) (s t : State), exec i s = .next t →
    t.dev.fault = s.dev.fault ∨ ∃ e, t.dev.fault = s.dev.fault ++ [⟨e, s.dev.pc⟩]) ∧
  (∀ (i : Instr) (s : State), s.dev.fault ≠ [] → exec i s = .fault .sessionFaulted) ∧
  (∀ s : State, (takeTurn s).dev.fault ≠ [] → step s = .fault .sessionFaulted)

/-- R33: the position starts at 0, the next step is the program's item at it, every step that does not fault advances
it by 1, and a step that faults leaves it. -/
def Obligations.PositionAdvancesByOneUnlessTheStepFaults : Prop :=
  State.reset.dev.pc = 0 ∧
  (∀ (i : Instr) (s t : State), exec i s = .next t →
    (t.dev.fault = s.dev.fault ∧ t.dev.pc = s.dev.pc + 1) ∨ (t.dev.fault ≠ s.dev.fault ∧ t.dev.pc = s.dev.pc)) ∧
  (∀ s : State, fetchItem s = s.dev.program[s.dev.pc]?)

/-- R214: with `fault` empty there is no step at or past the end of the program. -/
def Obligations.NoStepPastTheEndOfTheProgram : Prop :=
  ∀ s : State, (takeTurn s).dev.fault = [] → (takeTurn s).dev.program.length ≤ (takeTurn s).dev.pc →
    step s = .fault .endOfProgram

/-- A step of a running session runs the decoded instruction of the item at its position, in the state after the
turn is taken; with no turns listed that is the state itself. -/
def Obligations.StepRunsTheDecodedInstruction : Prop :=
  (∀ (s : State) (item : ProgramItem) (i : Instr), (takeTurn s).dev.fault = [] →
    fetchItem (takeTurn s) = some item → decodeItem (takeTurn s).dev.config.variant item = .ok i →
    step s = exec i (takeTurn s)) ∧
  (∀ s : State, s.turns = [] → takeTurn s = s)

/-- The word placed by `withFetchWord` is the one that the very next step fetches and runs (log 3: the model's
choice of how a program is loaded). -/
def Obligations.PlacedWordIsTheNextInstruction : Prop :=
  ∀ (s : State) (nbits w : Nat) (item : ProgramItem) (i : Instr), tableItem nbits w = some item →
    decodeItem s.dev.config.variant item = .ok i →
    step (s.withFetchWord nbits w) = exec i (s.withFetchWord nbits w)

/-- Taking a turn only changes which session is current (the model's choice of scheduling, log 9): the sessions are the
same ones, the bus and the draw counter are as they were, and of the turn list exactly the first turn is used up. A
turn that names one of the others makes it the current one, in exchange for the session that was; any other turn, and
no turn, leaves every session where it is. -/
def Obligations.TurnsReorderSessionsAndReachEveryOne : Prop :=
  (∀ s : State, ((takeTurn s).dev :: (takeTurn s).others).Perm (s.dev :: s.others) ∧
    (takeTurn s).bus = s.bus ∧ (takeTurn s).draws = s.draws ∧ (takeTurn s).turns = s.turns.tail) ∧
  (∀ (s : State) (k : Nat) (rest : List Nat) (d : Session), s.turns = (k + 1) :: rest → s.others[k]? = some d →
    (takeTurn s).dev = d ∧ (takeTurn s).others = s.others.set k s.dev) ∧
  (∀ s : State, (∀ (k : Nat) (rest : List Nat), s.turns = (k + 1) :: rest → s.others[k]? = none) →
    (takeTurn s).dev = s.dev ∧ (takeTurn s).others = s.others)

/-- What every instruction leaves unchanged: the configuration and the program of its own session, every other session
and the turn list; the transport script, the draw counter and the bus unless it is EXCHANGE; and `pending` unless it
is EXCHANGE or builds a frame. -/
def Obligations.FrameOfEveryInstruction : Prop :=
  ∀ (i : Instr) (s t : State), exec i s = .next t →
    t.dev.config = s.dev.config ∧ t.dev.program = s.dev.program ∧ t.others = s.others ∧ t.turns = s.turns ∧
    (i ≠ .exchange → t.dev.answers = s.dev.answers ∧ t.draws = s.draws ∧ t.bus = s.bus) ∧
    (∀ (b : List Byte) (b0 b1 b2 : Byte) (t' : BitVec 3) (c : Crc),
      (i = .crc5 b ∨ i = .decode b ∨ i = .verify b ∨ i = .check b0 b1 b2 ∨ i = .frameResponse b0 b1 t' c) →
      t.dev.pending = s.dev.pending)

/-- R240: no step of the machine changes the configuration of any device. The session that steps keeps the
configuration it had when its turn came, every other session is kept whole, and over the turn and the step together
the sessions may only change places, each with its configuration and its program. -/
def Obligations.NoStepChangesAnyConfiguration : Prop :=
  ∀ s t : State, step s = .next t →
    t.dev.config = (takeTurn s).dev.config ∧ t.others = (takeTurn s).others ∧
    ((t.dev.config, t.dev.program) :: t.others.map fun d => (d.config, d.program)).Perm
      ((s.dev.config, s.dev.program) :: s.others.map fun d => (d.config, d.program))

/-- R34, R213: what a step does to its own session does not depend on the other sessions, the turn list or the bus;
with the same draw counter (the model's own, log 2), two states that agree on the session step it alike. -/
def Obligations.SessionsDoNotInfluenceEachOther : Prop :=
  ∀ (i : Instr) (s s' t : State), s.dev = s'.dev → s.draws = s'.draws → exec i s = .next t →
    ∃ t', exec i s' = .next t' ∧ t'.dev = t.dev ∧ t'.others = s'.others

/-- R31: `pending` changes only in two ways: a step that builds a frame sets it from none to the frame it delivers,
and an EXCHANGE of a pending frame clears it. -/
def Obligations.PendingIsSetByEncodeAndClearedByExchange : Prop :=
  ∀ (i : Instr) (s t : State), exec i s = .next t →
    t.dev.pending = s.dev.pending ∨
    (s.dev.pending = none ∧ ∃ f, t.dev.pending = some f ∧
      t.dev.delivered = s.dev.delivered ++ [{ status := .ok, frame := some f }]) ∨
    (i = .exchange ∧ s.dev.pending ≠ none ∧ t.dev.pending = none)

/-- R52, R245, R246, R208: only EXCHANGE puts anything on the bus, once: one whole bracketed transaction that sends
the pending frame (the bus log is the model's own, log 10). -/
def Obligations.OnlyExchangeUsesTheBusOneBracketAtATime : Prop :=
  ∀ (i : Instr) (s t : State), exec i s = .next t →
    t.bus = s.bus ∨
    (i = .exchange ∧ ∃ f a, s.dev.pending = some f ∧
      t.bus = s.bus ++ [.chipSelectAssert, .exchange f a, .chipSelectDeassert])

/-- A caller's program ends clean (R214) exactly when it keeps the contract of R244, R246 and R201, whatever the
transport answers: for every program of well-laid-out instructions, from a new session of any device with any
transport script. (The command frame rows count as the ENCODE steps they spell and the response row as a DECODE step:
the model's reading, log 5. An OUT frame row of another chip counts as breaking the contract: the model's choice,
log 6.) -/
def Obligations.ARunIsCleanExactlyWhenTheContractIsKept : Prop :=
  ∀ (cfg : DeviceConfig) (p : List Instr) (answers : List TransportAnswer) (s : State),
    s.dev = newSession cfg (p.map encode) answers → s.turns = [] →
    (∀ i ∈ p, layoutOf i = none ∨ layoutOf i = some cfg.variant) →
    ((∃ t, runSteps p.length s = .next t ∧ cleanEnd t.dev = true) ↔ keepsContract cfg false p = true)

/-! ## Encoding -/

/-- Decoding reads back every encoded instruction, with every operand at every value; a pseudo-operation is read back
as its expansion (R75), and a command frame row under its own layout (R73). -/
def Obligations.DecodeReadsBackEveryEncoding : Prop :=
  ∀ (i : Instr) (v : Variant), layoutOf i = none ∨ layoutOf i = some v →
    decodeItem v (encode i) = .ok (expandPseudo i)

/-- Encoding gives back every decoded frame word bit for bit. -/
def Obligations.EncodeGivesBackEveryDecodedFrame : Prop :=
  ∀ (v : Variant) (fv : BitVec 24) (i : Instr),
    (decodeItem v (.commandFrame fv) = .ok i → encode i = .commandFrame fv) ∧
    (decodeItem v (.responseFrame fv) = .ok i → encode i = .responseFrame fv)

/-- R61: the four values of `OP` select the four operations, so every request decodes. -/
def Obligations.OpSelectsTheOperation : Prop :=
  (∀ r : Request, r.op = 0b00#2 → decodeRequest r = .crc5 r.b) ∧
  (∀ r : Request, r.op = 0b01#2 → decodeRequest r = .encode r.reg (directionOfBit r.dir) r.data) ∧
  (∀ r : Request, r.op = 0b10#2 → decodeRequest r = .decode r.b) ∧
  (∀ r : Request, r.op = 0b11#2 → decodeRequest r = .verify r.b) ∧
  (∀ (v : Variant) (r : Request), decodeItem v (.request r) = .ok (decodeRequest r))

/-- R60: a field that the selected operation does not use is ignored. -/
def Obligations.UnusedRequestFieldsAreIgnored : Prop :=
  ∀ r r' : Request, r.op = r'.op →
    (r.op ≠ 0b01#2 → r.b = r'.b → decodeRequest r = decodeRequest r') ∧
    (r.op = 0b01#2 → r.reg = r'.reg → r.dir = r'.dir → r.data = r'.data → decodeRequest r = decodeRequest r')

/-- R73: every command frame word is read as one row under OUT and as a different row under IN, and the register index,
direction and data byte that the two rows spell differ too, except for exactly the words whose byte 0 is 00, which
spell a read of register 0 under both (95_test_vectors.md section 2.2, `00 00 07`); the spec's example `a6 00 02`. -/
def Obligations.SameBitsSpellDifferentRequests : Prop :=
  (∀ fv : BitVec 24, fv.extractLsb' 5 3 = 0b000#3 →
    ∃ i j q r, decodeCommandFrame .outDriver fv = .ok i ∧ decodeCommandFrame .inReceiver fv = .ok j ∧ i ≠ j ∧
      spelledRequest i = some q ∧ spelledRequest j = some r ∧ (q = r ↔ fv.extractLsb' 16 8 = 0x00#8)) ∧
  decodeCommandFrame .outDriver 0xa60002#24 = .ok (.frameOutRead 2#2 0x13#5 0x00#8 0x02#5) ∧
  spelledRequest (.frameOutRead 2#2 0x13#5 0x00#8 0x02#5) = some (.encode 0x13#8 .read 0x00#8) ∧
  decodeCommandFrame .inReceiver 0xa60002#24 = .ok (.frameInWrite 0x26#7 0x00#8 0x02#5) ∧
  spelledRequest (.frameInWrite 0x26#7 0x00#8 0x02#5) = some (.encode 0x26#8 .write 0x00#8) ∧
  decodeCommandFrame .outDriver 0x000007#24 = .ok (.frameOutRead 0#2 0x00#5 0x00#8 0x07#5) ∧
  spelledRequest (.frameOutRead 0#2 0x00#5 0x00#8 0x07#5) = some (.encode 0x00#8 .read 0x00#8) ∧
  decodeCommandFrame .inReceiver 0x000007#24 = .ok (.frameInRead 0x00#7 0x00#8 0x07#5) ∧
  spelledRequest (.frameInRead 0x00#7 0x00#8 0x07#5) = some (.encode 0x00#8 .read 0x00#8)

/-- A command frame word whose bits [7:5] are not 000 is no command frame of the core (R66): the decoder rejects it
by name and the step refuses it (the model's choice, log 7). -/
def Obligations.MalformedCommandFramesAreRefused : Prop :=
  ∀ (s : State) (fv : BitVec 24), (takeTurn s).dev.fault = [] → fetchItem (takeTurn s) = some (.commandFrame fv) →
    fv.extractLsb' 5 3 ≠ 0b000#3 →
    decodeItem (takeTurn s).dev.config.variant (.commandFrame fv) = .error .commandFrameUpperBits ∧
    step s = .refused .malformedCommandFrame

/-- Words written out from the spec's encodings decode to the instructions they stand for: the frame words from R63,
R64 and R67, and the two table words by their OP alone (R61). That an opcode-table word, which has no operand bits,
stands for a request of three zero bytes is the model's choice (log 4). -/
def Obligations.KnownWordsDecode : Prop :=
  decodeTableWord 8 0b00 = some (.crc5 [0x00#8, 0x00#8, 0x00#8]) ∧
  decodeTableWord 8 0b11 = some (.verify [0x00#8, 0x00#8, 0x00#8]) ∧
  decodeItem .inReceiver (.commandFrame 0b100001001010010100000100#24)
    = .ok (.frameInWrite 0x04#7 0xa5#8 0x04#5) ∧
  decodeItem .outDriver (.commandFrame 0b010010111010010100000111#24)
    = .ok (.frameOutWrite 1#2 0x05#5 0xa5#8 0x07#5) ∧
  decodeItem .outDriver (.responseFrame 0b000000110101101000110000#24)
    = .ok (.frameResponse 0x03#8 0x5a#8 0b001#3 0x10#5)

/-- R75: each pseudo-operation is its expansion, in its item and in its effect in every state. -/
def Obligations.PseudoOperationsAreTheirExpansions : Prop :=
  (∀ reg : Byte, encode (.read reg) = encode (.encode reg .read 0x00#8) ∧
    ∀ s : State, exec (.read reg) s = exec (.encode reg .read 0x00#8) s) ∧
  (∀ reg data : Byte, encode (.write reg data) = encode (.encode reg .write data) ∧
    ∀ s : State, exec (.write reg data) s = exec (.encode reg .write data) s) ∧
  (∀ b0 b1 b2 : Byte, encode (.check b0 b1 b2) = encode (.verify [b0, b1, b2]) ∧
    ∀ s : State, exec (.check b0 b1 b2) s = exec (.verify [b0, b1, b2]) s)

/-- R74: a line written for an instruction assembles to it. -/
def Obligations.AssemblerReadsBackItsLines : Prop :=
  ∀ (i : Instr) (l : AsmLine), asmLineOf i = some l → assembleLine l = some i

/-- R41: the 24-bit value of a frame puts byte 0 in bits [23:16], byte 1 in [15:8] and byte 2 in [7:0], and every
24-bit value is the value of one frame. -/
def Obligations.FrameValueIsTheThreeBytesInOrder : Prop :=
  (∀ f : Frame, frameValue f = f.b0 ++ f.b1 ++ f.b2 ∧ (frameValue f).extractLsb' 16 8 = f.b0 ∧
    (frameValue f).extractLsb' 8 8 = f.b1 ∧ (frameValue f).extractLsb' 0 8 = f.b2 ∧
    frameOfValue (frameValue f) = f) ∧
  (∀ v : BitVec 24, frameValue (frameOfValue v) = v)

/-- R44: on the transport, byte 0 goes first, byte 2 last, and each byte MSB first, that is bit 23 of the frame's value
first and bit 0 last. -/
def Obligations.FramesGoOutMostSignificantBitFirst : Prop :=
  ∀ f : Frame, wireBits f = (List.range 24).map fun i => (f.b0 ++ f.b1 ++ f.b2 : BitVec 24).getLsbD (23 - i)

/-! ## CRC5 -/

/-- R100 to R107: CRC5 of a 3-byte input is the accumulator's low 5 bits after 19 steps, bit 5 being 0 there; of any
other length it is InvalidInputLength and nothing else; the payloads of all zeros and all ones give 0x07 and 0x03, and
`a6 00 00` gives 0x02. -/
def Obligations.Crc5IsTheNineteenStepAlgorithm : Prop :=
  (∀ b : List Byte, b.length ≠ 3 → coreCrc5 b = { status := .invalidInputLength }) ∧
  (∀ b0 b1 b2 : Byte, ∃ (W : BitVec 24) (acc : Nat → BitVec 6),
    W = b0 ++ b1 ++ b2.extractLsb' 5 3 ++ 0b00111#5 ∧
    acc 0 = W.extractLsb' 18 6 ∧
    (∀ k, 1 ≤ k → k ≤ 19 → ∃ win : BitVec 6,
      win = (if k = 1 then acc 0 else (acc (k - 1)).extractLsb' 0 5 ++ W.extractLsb' (19 - k) 1) ∧
      acc k = if win.getLsbD 5 = true then win ^^^ 0b110101#6 else win) ∧
    (acc 19).getLsbD 5 = false ∧
    coreCrc5 [b0, b1, b2] = { status := .ok, crc := some ((acc 19).extractLsb' 0 5) }) ∧
  coreCrc5 [0x00#8, 0x00#8, 0x00#8] = { status := .ok, crc := some 0x07#5 } ∧
  coreCrc5 [0xff#8, 0xff#8, 0xff#8] = { status := .ok, crc := some 0x03#5 } ∧
  coreCrc5 [0xa6#8, 0x00#8, 0x00#8] = { status := .ok, crc := some 0x02#5 } ∧
  (∀ r : Request, r.op = 0b00#2 → decodeRequest r = .crc5 r.b)

/-- The four vectors of the source (spec/95_test_vectors.md §1.1). -/
def Obligations.SourceVectorsHold : Prop :=
  coreCrc5 [0xa6#8, 0x00#8, 0x00#8] = { status := .ok, crc := some 0x02#5 } ∧
  coreCrc5 [0xff#8, 0x23#8, 0x00#8] = { status := .ok, crc := some 0x0c#5 } ∧
  coreCrc5 [0x01#8, 0x01#8, 0x00#8] = { status := .ok, crc := some 0x13#5 } ∧
  coreCrc5 [0x01#8, 0x00#8, 0x00#8] = { status := .ok, crc := some 0x05#5 }

/-- R112: inputs that differ only in byte 2 bits [4:0] have the same CRC5. -/
def Obligations.Crc5IgnoresTheChecksumField : Prop :=
  ∀ b0 b1 b2 b2' : Byte, b2.extractLsb' 5 3 = b2'.extractLsb' 5 3 →
    workingValue (crcPayload ⟨b0, b1, b2⟩) = workingValue (crcPayload ⟨b0, b1, b2'⟩) ∧
    coreCrc5 [b0, b1, b2] = coreCrc5 [b0, b1, b2']

/-- R109: the checksum is the remainder of the working value divided by g(x) = x^5 + x^4 + x^2 + 1 over GF(2): there is
a quotient, and the checksum is the only 5-bit remainder; and the equivalent form, the remainder of P · x^5 modulo
g(x), XOR 0b00111. -/
def Obligations.ChecksumIsTheRemainderModuloG : Prop :=
  ∀ p : BitVec 19,
    (∃ q : BitVec 19, workingValue p = gf2Mul (q.setWidth 24) 0b110101#24 ^^^ (crcOfPayload p).setWidth 24) ∧
    (∀ (q : BitVec 19) (r : BitVec 5), workingValue p = gf2Mul (q.setWidth 24) 0b110101#24 ^^^ r.setWidth 24 →
      r = crcOfPayload p) ∧
    (∃ (q : BitVec 19) (r : BitVec 5),
      p.setWidth 24 <<< 5 = gf2Mul (q.setWidth 24) 0b110101#24 ^^^ r.setWidth 24 ∧ crcOfPayload p = r ^^^ 0b00111#5)

/-- R110: the checksum is affine over XOR. -/
def Obligations.ChecksumIsAffine : Prop :=
  (∀ p q : BitVec 19, crcOfPayload (p ^^^ q) = crcOfPayload p ^^^ crcOfPayload q ^^^ 0b00111#5) ∧
  crcOfPayload 0#19 = 0b00111#5

/-- R111: every change of exactly one payload bit, and every change of an odd number of payload bits, changes the
checksum. -/
def Obligations.EverySingleOrOddChangeChangesTheChecksum : Prop :=
  (∀ (p : BitVec 19) (i : Nat), i < 19 → crcOfPayload (p ^^^ payloadBit i) ≠ crcOfPayload p) ∧
  (∀ p d : BitVec 19, oddWeight d = true → crcOfPayload (p ^^^ d) ≠ crcOfPayload p)

/-- R111: the two-bit changes that are not detected are exactly those at positions (i, i - 15). -/
def Obligations.UndetectedTwoBitChangesAreFifteenApart : Prop :=
  ∀ (p : BitVec 19) (i j : Nat), i < 19 → j < i →
    (crcOfPayload (p ^^^ payloadBit i ^^^ payloadBit j) = crcOfPayload p ↔ i = j + 15)

/-- R107, R214: a CRC5 step of a 3-byte input delivers the checksum and changes nothing else but `pc`. -/
def Obligations.Crc5StepCompletes : Prop :=
  ∀ (s : State) (b0 b1 b2 : Byte), s.dev.fault = [] →
    exec (.crc5 [b0, b1, b2]) s = .next { s with dev := { s.dev with
      pc := s.dev.pc + 1
      delivered := s.dev.delivered ++ [{ status := .ok, crc := some (crcOfFrame ⟨b0, b1, b2⟩) }] } }

/-! ## ENCODE -/

/-- R131 to R135: ENCODE accepts a register index in `REGSET` that fits its field, and its frame is the control byte
of the variant, the data byte, and the CRC5 of the two with a zero byte under 000; any other index is
InvalidRegister, with no frame. -/
def Obligations.EncodeBuildsTheCommandFrame : Prop :=
  ∀ (cfg : DeviceConfig) (reg : Byte) (dir : Direction) (data : Byte),
    (∀ lim, lim = (if cfg.variant = .outDriver then 32 else 128) →
      ((reg.toNat < lim ∧ reg ∈ cfg.regset) →
        ∃ (b0 : Byte) (c : Crc), coreEncode cfg reg dir data = { status := .ok, frame := some ⟨b0, data, 0b000#3 ++ c⟩ } ∧
          coreCrc5 [b0, data, 0x00#8] = { status := .ok, crc := some c } ∧
          (cfg.variant = .outDriver →
            b0 = (cfg.chipAddr.setWidth 8 <<< 6) ||| ((reg.extractLsb' 0 5).setWidth 8 <<< 1) |||
              (if dir = .write then 0x01#8 else 0x00#8)) ∧
          (cfg.variant = .inReceiver →
            b0 = ((if dir = .write then 0x01#8 else 0x00#8) <<< 7) ||| (reg.extractLsb' 0 7).setWidth 8)) ∧
      (¬ (reg.toNat < lim ∧ reg ∈ cfg.regset) → coreEncode cfg reg dir data = { status := .invalidRegister }))

/-- R63 to R66, R69: the frame of an accepted ENCODE, bit field by bit field, under each variant. -/
def Obligations.CommandFrameBitLayouts : Prop :=
  ∀ (cfg : DeviceConfig) (reg : Byte) (dir : Direction) (data : Byte) (f : Frame),
    coreEncode cfg reg dir data = { status := .ok, frame := some f } →
    ∃ (d : BitVec 1) (c : Crc), d = (if dir = .write then 1#1 else 0#1) ∧
      coreCrc5 (frameBytes f) = { status := .ok, crc := some c } ∧
      (cfg.variant = .outDriver →
        frameValue f = cfg.chipAddr ++ reg.extractLsb' 0 5 ++ d ++ data ++ 0b000#3 ++ c) ∧
      (cfg.variant = .inReceiver → frameValue f = d ++ reg.extractLsb' 0 7 ++ data ++ 0b000#3 ++ c)

/-- R136: every frame that ENCODE returns carries the CRC5 of itself in byte 2 bits [4:0], under 000. -/
def Obligations.EncodedFramesCarryTheirChecksum : Prop :=
  ∀ (cfg : DeviceConfig) (reg : Byte) (dir : Direction) (data : Byte) (f : Frame),
    (coreEncode cfg reg dir data).frame = some f →
    coreCrc5 (frameBytes f) = { status := .ok, crc := some (f.b2.extractLsb' 0 5) } ∧ f.b2.extractLsb' 5 3 = 0b000#3

/-- R137: changing only the direction changes one bit of byte 0 (bit 0 under OUT, bit 7 under IN) and the checksum, and
no other bit. -/
def Obligations.DirectionFlipChangesOneControlBitAndTheChecksum : Prop :=
  ∀ (cfg : DeviceConfig) (reg data : Byte) (f g : Frame),
    (coreEncode cfg reg .read data).frame = some f → (coreEncode cfg reg .write data).frame = some g →
    f.b0 ^^^ g.b0 = (if cfg.variant = .outDriver then 0x01#8 else 0x80#8) ∧
    f.b1 = g.b1 ∧ f.b2.extractLsb' 5 3 = g.b2.extractLsb' 5 3 ∧ f.b2.extractLsb' 0 5 ≠ g.b2.extractLsb' 0 5

/-- R214: an ENCODE, READ or WRITE step with nothing pending and an accepted register makes the frame pending,
delivers it, and changes nothing else but `pc`. -/
def Obligations.EncodeStepsMakeTheFramePending : Prop :=
  ∀ (s : State) (i : Instr) (reg : Byte) (dir : Direction) (data : Byte),
    (i = .encode reg dir data ∨ (i = .read reg ∧ dir = .read ∧ data = 0x00#8) ∨
      (i = .write reg data ∧ dir = .write)) →
    s.dev.fault = [] → s.dev.pending = none → registerAccepted s.dev.config reg = true →
    exec i s = .next { s with dev := { s.dev with
      pc := s.dev.pc + 1
      pending := some (buildFrame s.dev.config reg dir data)
      delivered := s.dev.delivered ++
        [{ status := .ok, frame := some (buildFrame s.dev.config reg dir data) }] } }

/-- R202: an ENCODE, READ or WRITE of a register index that R131 does not accept delivers InvalidRegister, produces no
frame, leaves `pending` none and does not fault the session. -/
def Obligations.InvalidRegisterIsDeliveredWithoutAFrame : Prop :=
  ∀ (s : State) (i : Instr) (reg : Byte) (dir : Direction) (data : Byte),
    (i = .encode reg dir data ∨ i = .read reg ∨ i = .write reg data) →
    s.dev.fault = [] → s.dev.pending = none →
    ¬ (reg.toNat < (if s.dev.config.variant = .outDriver then 32 else 128) ∧
      reg ∈ s.dev.config.regset) →
    ∃ t, exec i s = .next t ∧
      t = { s with dev := { s.dev with
        pc := s.dev.pc + 1
        delivered := s.dev.delivered ++ [{ status := .invalidRegister }] } } ∧
      t.dev.pending = none ∧ t.dev.fault = [] ∧ statusCode .invalidRegister = 2#3

/-! ## DECODE and VERIFY -/

/-- R139, R140: DECODE of a 3-byte input delivers its fields at fixed offsets, with no checksum check, for every device;
of any other length it is InvalidInputLength and nothing else. -/
def Obligations.DecodeSplitsAResponse : Prop :=
  (∀ b0 b1 b2 : Byte, coreDecode [b0, b1, b2] =
    { status := .ok, rdata := some b1, st0 := some b0, st2 := some (b2.extractLsb' 5 3),
      rxcrc := some (b2.extractLsb' 0 5) }) ∧
  (∀ b : List Byte, b.length ≠ 3 → coreDecode b = { status := .invalidInputLength }) ∧
  coreDecode [0x03#8, 0x5a#8, 0x10#8] =
    { status := .ok, rdata := some 0x5a#8, st0 := some 0x03#8, st2 := some 0b000#3, rxcrc := some 0x10#5 } ∧
  (∀ r : Request, r.op = 0b10#2 → decodeRequest r = .decode r.b)

/-- R139, R214: a DECODE step of a 3-byte input delivers the fields of the response and changes nothing else but `pc`.
A step of a response frame row does the same: that it is a session step at all, the DECODE of its three bytes, is the
model's reading (log 5), since R214 lists no such step. -/
def Obligations.DecodeAndResponseStepsComplete : Prop :=
  ∀ (s : State) (i : Instr) (b0 b1 b2 : Byte),
    (i = .decode [b0, b1, b2] ∨ i = .frameResponse b0 b1 (b2.extractLsb' 5 3) (b2.extractLsb' 0 5)) →
    s.dev.fault = [] →
    exec i s = .next { s with dev := { s.dev with
      pc := s.dev.pc + 1
      delivered := s.dev.delivered ++
        [{ status := .ok, rdata := some b1, st0 := some b0, st2 := some (b2.extractLsb' 5 3),
           rxcrc := some (b2.extractLsb' 0 5) }] } }

/-- R142, R204: VERIFY recomputes the checksum of a 3-byte input and returns every field, with OK when the checksum is
the one received and ChecksumMismatch when it is not; of any other length it is InvalidInputLength. -/
def Obligations.VerifyChecksAResponse : Prop :=
  (∀ (b0 b1 b2 : Byte) (c : Crc), coreCrc5 [b0, b1, b2] = { status := .ok, crc := some c } →
    (c = b2.extractLsb' 0 5 → coreVerify [b0, b1, b2] =
      { status := .ok, crc := some c, rdata := some b1, st0 := some b0, st2 := some (b2.extractLsb' 5 3),
        rxcrc := some (b2.extractLsb' 0 5) }) ∧
    (c ≠ b2.extractLsb' 0 5 → coreVerify [b0, b1, b2] =
      { status := .checksumMismatch, crc := some c, rdata := some b1, st0 := some b0,
        st2 := some (b2.extractLsb' 5 3), rxcrc := some (b2.extractLsb' 0 5) })) ∧
  (∀ b : List Byte, b.length ≠ 3 → coreVerify b = { status := .invalidInputLength }) ∧
  (∀ r : Request, r.op = 0b11#2 → decodeRequest r = .verify r.b)

/-- R142, R204, R214: a VERIFY or CHECK step of three bytes delivers what VERIFY answers, the mismatch (code 4) with
every field, and changes nothing else but `pc`: the session does not fault. -/
def Obligations.VerifyAndCheckStepsComplete : Prop :=
  statusCode .checksumMismatch = 4#3 ∧
  ∀ (s : State) (i : Instr) (b0 b1 b2 : Byte), (i = .verify [b0, b1, b2] ∨ i = .check b0 b1 b2) →
    s.dev.fault = [] →
    exec i s = .next { s with dev := { s.dev with
      pc := s.dev.pc + 1
      delivered := s.dev.delivered ++
        [{ status := if crcOfFrame ⟨b0, b1, b2⟩ = b2.extractLsb' 0 5 then .ok else .checksumMismatch,
           crc := some (crcOfFrame ⟨b0, b1, b2⟩), rdata := some b1, st0 := some b0,
           st2 := some (b2.extractLsb' 5 3), rxcrc := some (b2.extractLsb' 0 5) }] } }

/-- R142, R136: a frame built by ENCODE always verifies, and any single-bit change of a frame that verifies, in all
24 bits, is detected. -/
def Obligations.VerifyAcceptsEncodedFramesAndDetectsSingleBitErrors : Prop :=
  (∀ (cfg : DeviceConfig) (reg : Byte) (dir : Direction) (data : Byte) (f : Frame),
    (coreEncode cfg reg dir data).frame = some f → (coreVerify (frameBytes f)).status = .ok) ∧
  (∀ (f g : Frame) (i : Nat), i < 24 → (coreVerify (frameBytes f)).status = .ok →
    frameValue g = frameValue f ^^^ (1#24 <<< i) → (coreVerify (frameBytes g)).status = .checksumMismatch)

/-- R141: through a transport that echoes the frame, DECODE of ENCODE's frame gives back the data byte, for reads and
writes. -/
def Obligations.LoopbackPreservesTheDataByte : Prop :=
  ∀ (cfg : DeviceConfig) (reg : Byte) (dir : Direction) (data : Byte),
    reg.toNat < (if cfg.variant = .outDriver then 32 else 128) → reg ∈ cfg.regset →
    ∃ f, (coreEncode cfg reg dir data).frame = some f ∧
      (coreDecode (frameBytes f)).status = .ok ∧ (coreDecode (frameBytes f)).rdata = some data

/-- R141 in a session: ENCODE, an EXCHANGE that the transport is scripted (log 2) to answer with the same frame, and
DECODE of the response run, and the last response delivered carries the data byte. -/
def Obligations.LoopbackSessionDeliversTheDataByte : Prop :=
  ∀ (s : State) (reg : Byte) (dir : Direction) (data : Byte) (rest : List TransportAnswer),
    s.dev.fault = [] → s.dev.pending = none → registerAccepted s.dev.config reg = true →
    s.dev.answers = .response (buildFrame s.dev.config reg dir data) :: rest →
    ∃ s1 s2 s3 g r, exec (.encode reg dir data) s = .next s1 ∧ exec .exchange s1 = .next s2 ∧
      s2.dev.delivered = s1.dev.delivered ++ [{ status := .ok, resp := some g }] ∧
      exec (.decode (frameBytes g)) s2 = .next s3 ∧ s3.dev.delivered = s2.dev.delivered ++ [r] ∧
      r.rdata = some data ∧ s3.dev.pending = none ∧ s3.dev.fault = [] ∧ s3.dev.pc = s.dev.pc + 3

/-! ## Errors and the transport boundary -/

/-- R201, R214: a CRC5, DECODE or VERIFY input that does not have exactly 3 bytes faults the session at this step: the
record is appended, nothing else changes, and no further step is taken. That no response with STATUS 1 is delivered
is the model's reading of R214 against R207 (log 11). -/
def Obligations.WrongLengthFaultsTheSession : Prop :=
  ∀ (s : State) (i : Instr) (b : List Byte), (i = .crc5 b ∨ i = .decode b ∨ i = .verify b) → b.length ≠ 3 →
    s.dev.fault = [] →
    ∃ t, exec i s = .next t ∧
      t = { s with dev := { s.dev with fault := [⟨.invalidInputLength, s.dev.pc⟩] } } ∧
      ∀ (j : Instr) (u : State), exec j t ≠ .next u

/-- R205, R214: an ENCODE (READ, WRITE) while a frame is pending, or an EXCHANGE while none is, faults the session at
this step: the record is appended, nothing else changes, and no further step is taken. That no response with STATUS 5
is delivered is the model's reading of R214 against R207 (log 11). -/
def Obligations.BrokenContractFaultsTheSession : Prop :=
  ∀ (s : State) (i : Instr) (reg : Byte) (dir : Direction) (data : Byte),
    (((i = .encode reg dir data ∨ i = .read reg ∨ i = .write reg data) ∧ s.dev.pending ≠ none) ∨
      (i = .exchange ∧ s.dev.pending = none)) →
    s.dev.fault = [] →
    ∃ t, exec i s = .next t ∧
      t = { s with dev := { s.dev with fault := [⟨.protocolHazard, s.dev.pc⟩] } } ∧
      ∀ (j : Instr) (u : State), exec j t ≠ .next u

/-- R203, R214, R245: an EXCHANGE of a pending frame whose transport answer is scripted sends the frame in one bracket,
clears `pending` on success and on failure, and delivers the response frame or TransportFailure. The script and its
consumption are the model's (log 2), and so is the bus log in which the bracket is recorded (log 10). -/
def Obligations.ExchangeSendsPendingAndDeliversTheAnswer : Prop :=
  statusCode .transportFailure = 3#3 ∧
  ∀ (s : State) (f : Frame) (a : TransportAnswer) (rest : List TransportAnswer),
    s.dev.fault = [] → s.dev.pending = some f → s.dev.answers = a :: rest →
    exec .exchange s = .next { s with
      bus := s.bus ++ [.chipSelectAssert, .exchange f a, .chipSelectDeassert]
      dev := { s.dev with
        pc := s.dev.pc + 1
        pending := none
        answers := rest
        delivered := s.dev.delivered ++
          [match a with
            | .response g => { status := .ok, resp := some g }
            | .failure => { status := .transportFailure }] } }

/-- R216: an EXCHANGE of a pending frame with no scripted answer completes with SOME answer, a response frame or a
failure, of which nothing is known (a free value, log 2; the bus log is the model's, log 10). -/
def Obligations.UnscriptedExchangeCompletesWithSomeAnswer : Prop :=
  ∀ (s : State) (f : Frame), s.dev.fault = [] → s.dev.pending = some f → s.dev.answers = [] →
    ∃ a t, exec .exchange s = .next t ∧ t.dev.pending = none ∧ t.dev.pc = s.dev.pc + 1 ∧
      t.bus = s.bus ++ [.chipSelectAssert, .exchange f a, .chipSelectDeassert] ∧
      ((∃ g, a = .response g ∧ t.dev.delivered = s.dev.delivered ++ [{ status := .ok, resp := some g }]) ∨
        (a = .failure ∧ t.dev.delivered = s.dev.delivered ++ [{ status := .transportFailure }]))

/-- R62: which fields each operation's response has: FRAME of ENCODE, CRC of CRC5 and VERIFY, the response fields of
DECODE and VERIFY, none with InvalidInputLength or InvalidRegister, and all of VERIFY's with ChecksumMismatch. -/
def Obligations.ResponsesHaveExactlyTheirFields : Prop :=
  (∀ b, (coreCrc5 b).frame = none ∧ (coreCrc5 b).rdata = none ∧ (coreCrc5 b).st0 = none ∧ (coreCrc5 b).st2 = none ∧
    (coreCrc5 b).rxcrc = none ∧ (coreCrc5 b).resp = none ∧
    ((coreCrc5 b).crc ≠ none ↔ (coreCrc5 b).status = .ok)) ∧
  (∀ cfg reg dir data, ((coreEncode cfg reg dir data).frame ≠ none ↔ (coreEncode cfg reg dir data).status = .ok) ∧
    coreEncode cfg reg dir data =
      { status := (coreEncode cfg reg dir data).status, frame := (coreEncode cfg reg dir data).frame }) ∧
  (∀ b, (coreDecode b).frame = none ∧ (coreDecode b).crc = none ∧ (coreDecode b).resp = none ∧
    ((coreDecode b).rdata ≠ none ↔ (coreDecode b).status = .ok) ∧
    ((coreDecode b).st0 ≠ none ↔ (coreDecode b).status = .ok) ∧
    ((coreDecode b).st2 ≠ none ↔ (coreDecode b).status = .ok) ∧
    ((coreDecode b).rxcrc ≠ none ↔ (coreDecode b).status = .ok)) ∧
  (∀ b, (coreVerify b).frame = none ∧ (coreVerify b).resp = none ∧
    ((coreVerify b).crc ≠ none ↔ ((coreVerify b).status = .ok ∨ (coreVerify b).status = .checksumMismatch)) ∧
    ((coreVerify b).rdata ≠ none ↔ ((coreVerify b).status = .ok ∨ (coreVerify b).status = .checksumMismatch)) ∧
    ((coreVerify b).st0 ≠ none ↔ ((coreVerify b).status = .ok ∨ (coreVerify b).status = .checksumMismatch)) ∧
    ((coreVerify b).st2 ≠ none ↔ ((coreVerify b).status = .ok ∨ (coreVerify b).status = .checksumMismatch)) ∧
    ((coreVerify b).rxcrc ≠ none ↔ ((coreVerify b).status = .ok ∨ (coreVerify b).status = .checksumMismatch)))

/-- R70: an ENCODE is illegal exactly when its register index is not accepted, a CRC5, DECODE or VERIFY exactly when its
input does not have 3 bytes, and each illegal request raises its error. -/
def Obligations.IllegalRequestsAreExactlyTheseAndRaise : Prop :=
  ∀ cfg : DeviceConfig,
    (∀ reg dir data, ((coreEncode cfg reg dir data).status = .invalidRegister ↔
        ¬ (reg.toNat < (if cfg.variant = .outDriver then 32 else 128) ∧ reg ∈ cfg.regset)) ∧
      ((coreEncode cfg reg dir data).status = .invalidRegister ∨ (coreEncode cfg reg dir data).status = .ok) ∧
      ((Instr.encode reg dir data).legal cfg = true ↔ (coreEncode cfg reg dir data).status = .ok)) ∧
    (∀ b : List Byte, ((coreCrc5 b).status = .invalidInputLength ↔ b.length ≠ 3) ∧
      ((coreDecode b).status = .invalidInputLength ↔ b.length ≠ 3) ∧
      ((coreVerify b).status = .invalidInputLength ↔ b.length ≠ 3))

/-- R200: the status codes are 0 to 5, one each; codes 6 and 7 are never produced. -/
def Obligations.StatusCodesAreDistinctAndBelowSix : Prop :=
  statusCode .ok = 0#3 ∧ statusCode .invalidInputLength = 1#3 ∧ statusCode .invalidRegister = 2#3 ∧
  statusCode .transportFailure = 3#3 ∧ statusCode .checksumMismatch = 4#3 ∧ statusCode .protocolHazard = 5#3 ∧
  (∀ a b : Status, statusCode a = statusCode b → a = b) ∧ (∀ a : Status, statusCode a ≠ 6#3 ∧ statusCode a ≠ 7#3)

/-- R206: where several errors could apply, the first in the order wins: ProtocolHazard before InvalidRegister in an
ENCODE step, InvalidInputLength before ChecksumMismatch in a VERIFY step, ProtocolHazard before TransportFailure in an
EXCHANGE step; each step that completes delivers exactly one response, and a step that faults delivers none (log 11;
the transport's script in the third clause is log 2). -/
def Obligations.EarlierErrorsWin : Prop :=
  (∀ (s : State) (reg : Byte) (dir : Direction) (data : Byte), s.dev.fault = [] → s.dev.pending ≠ none →
    registerAccepted s.dev.config reg = false →
    exec (.encode reg dir data) s =
      .next { s with dev := { s.dev with fault := [⟨.protocolHazard, s.dev.pc⟩] } }) ∧
  (∀ b : List Byte, b.length ≠ 3 → (coreVerify b).status = .invalidInputLength) ∧
  (∀ (s : State) (rest : List TransportAnswer), s.dev.fault = [] → s.dev.pending = none →
    s.dev.answers = .failure :: rest →
    exec .exchange s = .next { s with dev := { s.dev with fault := [⟨.protocolHazard, s.dev.pc⟩] } }) ∧
  (∀ (i : Instr) (s t : State), exec i s = .next t →
    (t.dev.fault = s.dev.fault ∧ ∃ r, t.dev.delivered = s.dev.delivered ++ [r]) ∨
    (t.dev.fault ≠ s.dev.fault ∧ t.dev.delivered = s.dev.delivered))

/-! ## Frame rows (log 5, log 6) -/

/-- The OUT command frame rows, on an OUT device of the frame's chip address with nothing pending and the register
accepted (the model's reading of a frame row as the request it spells, log 5): the request's frame becomes pending
and is delivered; when the row is well formed it is the very frame of the row. -/
def Obligations.OutFrameRowsIssueTheirRequest : Prop :=
  ∀ (s : State) (i : Instr) (d : Direction) (a : BitVec 2) (r : BitVec 5) (v : Byte) (c : Crc),
    ((i = .frameOutRead a r v c ∧ d = .read) ∨ (i = .frameOutWrite a r v c ∧ d = .write)) →
    s.dev.fault = [] → s.dev.pending = none → s.dev.config.variant = .outDriver → s.dev.config.chipAddr = a →
    r.setWidth 8 ∈ s.dev.config.regset →
    ∃ f, exec i s = .next { s with dev := { s.dev with
        pc := s.dev.pc + 1
        pending := some f
        delivered := s.dev.delivered ++ [{ status := .ok, frame := some f }] } } ∧
      coreEncode s.dev.config (r.setWidth 8) d v = { status := .ok, frame := some f } ∧
      (i.wellFormed = true → frameValue f = a ++ r ++ directionBit d ++ v ++ 0b000#3 ++ c)

/-- The IN command frame rows, on an IN device (the model's reading, log 5), as for OUT. -/
def Obligations.InFrameRowsIssueTheirRequest : Prop :=
  ∀ (s : State) (i : Instr) (d : Direction) (r : BitVec 7) (v : Byte) (c : Crc),
    ((i = .frameInRead r v c ∧ d = .read) ∨ (i = .frameInWrite r v c ∧ d = .write)) →
    s.dev.fault = [] → s.dev.pending = none → s.dev.config.variant = .inReceiver →
    r.setWidth 8 ∈ s.dev.config.regset →
    ∃ f, exec i s = .next { s with dev := { s.dev with
        pc := s.dev.pc + 1
        pending := some f
        delivered := s.dev.delivered ++ [{ status := .ok, frame := some f }] } } ∧
      coreEncode s.dev.config (r.setWidth 8) d v = { status := .ok, frame := some f } ∧
      (i.wellFormed = true → frameValue f = directionBit d ++ r ++ v ++ 0b000#3 ++ c)

/-- On a device of its layout, and under OUT of its chip address, a command frame row is in every state exactly the
ENCODE of its register, direction and data byte (the model's reading, log 5): it faults, is delivered as
InvalidRegister (R202) and meets ProtocolHazard (R205) as that ENCODE does. -/
def Obligations.FrameRowsFailAsTheirEncodeDoes : Prop :=
  ∀ (s : State) (a : BitVec 2) (r : BitVec 5) (r' : BitVec 7) (v : Byte) (c : Crc),
    (s.dev.config.variant = .outDriver → s.dev.config.chipAddr = a →
      exec (.frameOutRead a r v c) s = exec (.encode (r.setWidth 8) .read v) s ∧
      exec (.frameOutWrite a r v c) s = exec (.encode (r.setWidth 8) .write v) s) ∧
    (s.dev.config.variant = .inReceiver →
      exec (.frameInRead r' v c) s = exec (.encode (r'.setWidth 8) .read v) s ∧
      exec (.frameInWrite r' v c) s = exec (.encode (r'.setWidth 8) .write v) s)

/-- A command frame row of another device is refused by name (the model's choice, log 6): the other VARIANT's layout,
and under OUT another chip address. -/
def Obligations.FramesOfOtherDevicesAreRefused : Prop :=
  ∀ (s : State) (a : BitVec 2) (r : BitVec 5) (r' : BitVec 7) (v : Byte) (c : Crc), s.dev.fault = [] →
    (s.dev.config.variant = .inReceiver →
      exec (.frameOutRead a r v c) s = .refused .frameOfOtherVariant ∧
      exec (.frameOutWrite a r v c) s = .refused .frameOfOtherVariant) ∧
    (s.dev.config.variant = .outDriver →
      exec (.frameInRead r' v c) s = .refused .frameOfOtherVariant ∧
      exec (.frameInWrite r' v c) s = .refused .frameOfOtherVariant) ∧
    (s.dev.config.variant = .outDriver → s.dev.config.chipAddr ≠ a →
      exec (.frameOutRead a r v c) s = .refused .frameOfOtherChip ∧
      exec (.frameOutWrite a r v c) s = .refused .frameOfOtherChip)
end

