-- ==== Sys2Proof/Laws/Engine.lean ====
section
/-! SUPPORT. The engine's lemmas: each step is linear over XOR and clears the feedback flag. -/

namespace Sys2Proof.Machine

/-- R103: the feedback rule leaves bit 5 clear, since `POLY[5] = 1` (R29). -/
theorem feedbackRule_clears_flag (win : BitVec 6) : feedbackFlag (feedbackRule win) = false := by
  revert win; decide

/-- The feedback rule without its branch: the flag selects `POLY` or zero. -/
theorem feedbackRule_eq_xor (win : BitVec 6) :
    feedbackRule win = win ^^^ (if feedbackFlag win then Config.poly else 0#6) := by
  unfold feedbackRule; split <;> simp

/-- The feedback flag of a sum. -/
theorem feedbackFlag_xor (a b : BitVec 6) : feedbackFlag (a ^^^ b) = (feedbackFlag a ^^ feedbackFlag b) := by
  simp [feedbackFlag]

/-- The feedback rule is linear. -/
theorem feedbackRule_xor (a b : BitVec 6) : feedbackRule (a ^^^ b) = feedbackRule a ^^^ feedbackRule b := by
  have key : ∀ x y p : BitVec 6, x ^^^ p ^^^ (y ^^^ p) = x ^^^ y := fun x y p => by
    rw [BitVec.xor_comm y p, BitVec.xor_assoc, ← BitVec.xor_assoc p p y]; simp
  have left : ∀ x y p : BitVec 6, x ^^^ p ^^^ y = x ^^^ y ^^^ p := fun x y p => by
    rw [BitVec.xor_assoc, BitVec.xor_comm p, ← BitVec.xor_assoc]
  simp only [feedbackRule, feedbackFlag_xor]
  cases feedbackFlag a <;> cases feedbackFlag b <;> simp [key, left, BitVec.xor_assoc]

/-- The window of a step is linear in the working value and the accumulator. -/
theorem crcWindow_xor (w w' : BitVec 24) (acc acc' : BitVec 6) (k : Nat) :
    crcWindow (w ^^^ w') (acc ^^^ acc') k = crcWindow w acc k ^^^ crcWindow w' acc' k := by
  unfold crcWindow
  split
  · rfl
  · rw [BitVec.extractLsb'_xor, BitVec.extractLsb'_xor, BitVec.xor_append]

/-- The accumulator after any number of steps is linear in the working value. -/
theorem crcAcc_xor (w w' : BitVec 24) (k : Nat) : crcAcc (w ^^^ w') k = crcAcc w k ^^^ crcAcc w' k := by
  induction k with
  | zero => exact BitVec.extractLsb'_xor
  | succ k ih => simp only [crcAcc, ih, crcWindow_xor, feedbackRule_xor]

/-- R112: the payload does not read byte 2 bits [4:0], so a checksum placed there leaves it as it was. -/
theorem crcPayload_sealed (b0 b1 : Byte) (c : Crc) :
    crcPayload ⟨b0, b1, 0b000#3 ++ c⟩ = crcPayload ⟨b0, b1, 0x00#8⟩ := by
  have upper : ∀ c : Crc, (0b000#3 ++ c).extractLsb' 5 3 = (0x00#8).extractLsb' 5 3 := by decide
  simp only [crcPayload, upper]

end Sys2Proof.Machine
end

