-- ==== Sys2Proof/Laws/State.lean ====
section
/-! SUPPORT. One lemma per field per update of the state: what each shared operation does to each field. -/

namespace Sys2Proof.Machine

@[simp] theorem advance_config (s : State) : (advance s).dev.config = s.dev.config := rfl
@[simp] theorem advance_program (s : State) : (advance s).dev.program = s.dev.program := rfl
@[simp] theorem advance_pc (s : State) : (advance s).dev.pc = s.dev.pc + 1 := rfl
@[simp] theorem advance_pending (s : State) : (advance s).dev.pending = s.dev.pending := rfl
@[simp] theorem advance_fault (s : State) : (advance s).dev.fault = s.dev.fault := rfl
@[simp] theorem advance_delivered (s : State) : (advance s).dev.delivered = s.dev.delivered := rfl
@[simp] theorem advance_answers (s : State) : (advance s).dev.answers = s.dev.answers := rfl
@[simp] theorem advance_others (s : State) : (advance s).others = s.others := rfl
@[simp] theorem advance_turns (s : State) : (advance s).turns = s.turns := rfl
@[simp] theorem advance_bus (s : State) : (advance s).bus = s.bus := rfl
@[simp] theorem advance_draws (s : State) : (advance s).draws = s.draws := rfl

@[simp] theorem deliver_config (r : Response) (s : State) : (deliver r s).dev.config = s.dev.config := rfl
@[simp] theorem deliver_program (r : Response) (s : State) : (deliver r s).dev.program = s.dev.program := rfl
@[simp] theorem deliver_pc (r : Response) (s : State) : (deliver r s).dev.pc = s.dev.pc := rfl
@[simp] theorem deliver_pending (r : Response) (s : State) : (deliver r s).dev.pending = s.dev.pending := rfl
@[simp] theorem deliver_fault (r : Response) (s : State) : (deliver r s).dev.fault = s.dev.fault := rfl
@[simp] theorem deliver_delivered (r : Response) (s : State) : (deliver r s).dev.delivered = s.dev.delivered ++ [r] := rfl
@[simp] theorem deliver_answers (r : Response) (s : State) : (deliver r s).dev.answers = s.dev.answers := rfl
@[simp] theorem deliver_others (r : Response) (s : State) : (deliver r s).others = s.others := rfl
@[simp] theorem deliver_turns (r : Response) (s : State) : (deliver r s).turns = s.turns := rfl
@[simp] theorem deliver_bus (r : Response) (s : State) : (deliver r s).bus = s.bus := rfl
@[simp] theorem deliver_draws (r : Response) (s : State) : (deliver r s).draws = s.draws := rfl

@[simp] theorem setPending_config (p : Option Frame) (s : State) : (setPending p s).dev.config = s.dev.config := rfl
@[simp] theorem setPending_program (p : Option Frame) (s : State) : (setPending p s).dev.program = s.dev.program := rfl
@[simp] theorem setPending_pc (p : Option Frame) (s : State) : (setPending p s).dev.pc = s.dev.pc := rfl
@[simp] theorem setPending_pending (p : Option Frame) (s : State) : (setPending p s).dev.pending = p := rfl
@[simp] theorem setPending_fault (p : Option Frame) (s : State) : (setPending p s).dev.fault = s.dev.fault := rfl
@[simp] theorem setPending_delivered (p : Option Frame) (s : State) : (setPending p s).dev.delivered = s.dev.delivered := rfl
@[simp] theorem setPending_answers (p : Option Frame) (s : State) : (setPending p s).dev.answers = s.dev.answers := rfl
@[simp] theorem setPending_others (p : Option Frame) (s : State) : (setPending p s).others = s.others := rfl
@[simp] theorem setPending_turns (p : Option Frame) (s : State) : (setPending p s).turns = s.turns := rfl
@[simp] theorem setPending_bus (p : Option Frame) (s : State) : (setPending p s).bus = s.bus := rfl
@[simp] theorem setPending_draws (p : Option Frame) (s : State) : (setPending p s).draws = s.draws := rfl

@[simp] theorem recordFault_config (e : SessionError) (s : State) : (recordFault e s).dev.config = s.dev.config := rfl
@[simp] theorem recordFault_program (e : SessionError) (s : State) : (recordFault e s).dev.program = s.dev.program := rfl
@[simp] theorem recordFault_pc (e : SessionError) (s : State) : (recordFault e s).dev.pc = s.dev.pc := rfl
@[simp] theorem recordFault_pending (e : SessionError) (s : State) : (recordFault e s).dev.pending = s.dev.pending := rfl
@[simp] theorem recordFault_fault (e : SessionError) (s : State) : (recordFault e s).dev.fault = s.dev.fault ++ [⟨e, s.dev.pc⟩] := rfl
@[simp] theorem recordFault_delivered (e : SessionError) (s : State) : (recordFault e s).dev.delivered = s.dev.delivered := rfl
@[simp] theorem recordFault_answers (e : SessionError) (s : State) : (recordFault e s).dev.answers = s.dev.answers := rfl
@[simp] theorem recordFault_others (e : SessionError) (s : State) : (recordFault e s).others = s.others := rfl
@[simp] theorem recordFault_turns (e : SessionError) (s : State) : (recordFault e s).turns = s.turns := rfl
@[simp] theorem recordFault_bus (e : SessionError) (s : State) : (recordFault e s).bus = s.bus := rfl
@[simp] theorem recordFault_draws (e : SessionError) (s : State) : (recordFault e s).draws = s.draws := rfl

@[simp] theorem logBus_config (f : Frame) (a : TransportAnswer) (s : State) : (logBus f a s).dev.config = s.dev.config := rfl
@[simp] theorem logBus_program (f : Frame) (a : TransportAnswer) (s : State) : (logBus f a s).dev.program = s.dev.program := rfl
@[simp] theorem logBus_pc (f : Frame) (a : TransportAnswer) (s : State) : (logBus f a s).dev.pc = s.dev.pc := rfl
@[simp] theorem logBus_pending (f : Frame) (a : TransportAnswer) (s : State) : (logBus f a s).dev.pending = s.dev.pending := rfl
@[simp] theorem logBus_fault (f : Frame) (a : TransportAnswer) (s : State) : (logBus f a s).dev.fault = s.dev.fault := rfl
@[simp] theorem logBus_delivered (f : Frame) (a : TransportAnswer) (s : State) : (logBus f a s).dev.delivered = s.dev.delivered := rfl
@[simp] theorem logBus_answers (f : Frame) (a : TransportAnswer) (s : State) : (logBus f a s).dev.answers = s.dev.answers := rfl
@[simp] theorem logBus_others (f : Frame) (a : TransportAnswer) (s : State) : (logBus f a s).others = s.others := rfl
@[simp] theorem logBus_turns (f : Frame) (a : TransportAnswer) (s : State) : (logBus f a s).turns = s.turns := rfl
@[simp] theorem logBus_bus (f : Frame) (a : TransportAnswer) (s : State) : (logBus f a s).bus = s.bus ++ busBracket f a := rfl
@[simp] theorem logBus_draws (f : Frame) (a : TransportAnswer) (s : State) : (logBus f a s).draws = s.draws := rfl

@[simp] theorem consumeAnswer_config (s : State) : (consumeAnswer s).dev.config = s.dev.config := by
  unfold consumeAnswer; split <;> rfl
@[simp] theorem consumeAnswer_program (s : State) : (consumeAnswer s).dev.program = s.dev.program := by
  unfold consumeAnswer; split <;> rfl
@[simp] theorem consumeAnswer_pc (s : State) : (consumeAnswer s).dev.pc = s.dev.pc := by
  unfold consumeAnswer; split <;> rfl
@[simp] theorem consumeAnswer_pending (s : State) : (consumeAnswer s).dev.pending = s.dev.pending := by
  unfold consumeAnswer; split <;> rfl
@[simp] theorem consumeAnswer_fault (s : State) : (consumeAnswer s).dev.fault = s.dev.fault := by
  unfold consumeAnswer; split <;> rfl
@[simp] theorem consumeAnswer_delivered (s : State) : (consumeAnswer s).dev.delivered = s.dev.delivered := by
  unfold consumeAnswer; split <;> rfl
@[simp] theorem consumeAnswer_others (s : State) : (consumeAnswer s).others = s.others := by
  unfold consumeAnswer; split <;> rfl
@[simp] theorem consumeAnswer_turns (s : State) : (consumeAnswer s).turns = s.turns := by
  unfold consumeAnswer; split <;> rfl
@[simp] theorem consumeAnswer_bus (s : State) : (consumeAnswer s).bus = s.bus := by
  unfold consumeAnswer; split <;> rfl

/-- A scripted answer is taken off the script. -/
theorem consumeAnswer_of_script {s : State} {a : TransportAnswer} {rest : List TransportAnswer}
    (h : s.dev.answers = a :: rest) : consumeAnswer s = { s with dev := { s.dev with answers := rest } } := by
  simp [consumeAnswer, h]

/-- Without a script, the draw counter moves. -/
theorem consumeAnswer_of_no_script {s : State} (h : s.dev.answers = []) :
    consumeAnswer s = { s with draws := s.draws + 1 } := by
  simp [consumeAnswer, h]

/-- The scripted answer is the one given. -/
theorem transportAnswer_of_script {s : State} {a : TransportAnswer} {rest : List TransportAnswer}
    (h : s.dev.answers = a :: rest) : transportAnswer s = a := by
  simp [transportAnswer, h]

/-- Without a script, the answer is the free value at the draw counter. -/
theorem transportAnswer_of_no_script {s : State} (h : s.dev.answers = []) :
    transportAnswer s = Config.freeAnswer s.draws := by
  simp [transportAnswer, h]

end Sys2Proof.Machine
end

