-- ==== Sys2Proof/Laws/Ops.lean ====
section
/-! SUPPORT. What each shared operation of the session step can do, said once: when it answers a next state, which
one, and under what condition. -/

namespace Sys2Proof.Machine

/-- A running session takes the step. -/
@[simp] theorem ifRunning_of_running {s : State} {o : Host.Outcome State Fault Refusal} (h : s.dev.fault = []) :
    ifRunning s o = o := by simp [ifRunning, h]

/-- A faulted session takes no step (R32). -/
@[simp] theorem ifRunning_of_faulted {s : State} {o : Host.Outcome State Fault Refusal} (h : s.dev.fault ≠ []) :
    ifRunning s o = .fault .sessionFaulted := by simp [ifRunning, h]

/-- Only a running session answers a next state. -/
theorem ifRunning_next {s t : State} {o : Host.Outcome State Fault Refusal} (h : ifRunning s o = .next t) :
    s.dev.fault = [] ∧ o = .next t := by
  unfold ifRunning at h
  split at h
  · exact ⟨‹_›, h⟩
  · cases h

/-- A CRC5, DECODE or VERIFY step faults on a wrong length and delivers anything else (R214). -/
theorem issueChecked_next {r : Response} {s t : State} (h : issueChecked r s = .next t) :
    s.dev.fault = [] ∧
      ((r.status = .invalidInputLength ∧ t = recordFault .invalidInputLength s) ∨
        (r.status ≠ .invalidInputLength ∧ t = deliver r (advance s))) := by
  obtain ⟨hf, h⟩ := ifRunning_next h
  refine ⟨hf, ?_⟩
  split at h
  · exact .inl ⟨‹_›, by simpa [raiseFault] using h.symm⟩
  · exact .inr ⟨‹_›, by simpa [completeStep] using h.symm⟩

/-- An ENCODE step faults while a frame is pending, makes an accepted register's frame pending, and delivers
InvalidRegister of any other (R214). -/
theorem issueEncode_next {reg : Byte} {dir : Direction} {data : Byte} {s t : State}
    (h : issueEncode reg dir data s = .next t) :
    s.dev.fault = [] ∧
      ((s.dev.pending ≠ none ∧ t = recordFault .protocolHazard s) ∨
        (s.dev.pending = none ∧ registerAccepted s.dev.config reg = true ∧
          t = deliver { status := .ok, frame := some (buildFrame s.dev.config reg dir data) }
            (advance (setPending (some (buildFrame s.dev.config reg dir data)) s))) ∨
        (s.dev.pending = none ∧ registerAccepted s.dev.config reg = false ∧
          t = deliver { status := .invalidRegister } (advance s))) := by
  obtain ⟨hf, h⟩ := ifRunning_next h
  refine ⟨hf, ?_⟩
  by_cases hp : s.dev.pending = none
  · right
    cases hr : registerAccepted s.dev.config reg
    · exact .inr ⟨hp, rfl, by simpa [hp, coreEncode, hr, completeStep] using h.symm⟩
    · exact .inl ⟨hp, rfl, by simpa [hp, coreEncode, hr, completeStep] using h.symm⟩
  · exact .inl ⟨hp, by simpa [hp, raiseFault] using h.symm⟩

/-- A command frame row takes a step only as its ENCODE request, on a device of its layout (log 6). -/
theorem issueFrame_next {v : Variant} {chip : Option (BitVec 2)} {reg : Byte} {dir : Direction} {data : Byte}
    {s t : State} (h : issueFrame v chip reg dir data s = .next t) :
    s.dev.config.variant = v ∧ issueEncode reg dir data s = .next t := by
  obtain ⟨-, h⟩ := ifRunning_next h
  split at h
  · cases h
  · split at h
    · cases h
    · exact ⟨by simpa using ‹¬s.dev.config.variant ≠ v›, h⟩

/-- An EXCHANGE step faults with nothing pending, and otherwise sends and clears `pending` and delivers the
answer (R214). -/
theorem issueExchange_next {s t : State} (h : issueExchange s = .next t) :
    s.dev.fault = [] ∧
      ((s.dev.pending = none ∧ t = recordFault .protocolHazard s) ∨
        ∃ f, s.dev.pending = some f ∧
          t = deliver (exchangeResponse (transportAnswer s))
            (advance (setPending none (logBus f (transportAnswer s) (consumeAnswer s))))) := by
  obtain ⟨hf, h⟩ := ifRunning_next h
  refine ⟨hf, ?_⟩
  cases hp : s.dev.pending with
  | none => exact .inl ⟨rfl, by simpa [hp, raiseFault] using h.symm⟩
  | some f => exact .inr ⟨f, rfl, by simpa [hp, completeStep] using h.symm⟩

/-- An item placed at a position is the one read there. -/
theorem placeItem_get (p : List ProgramItem) (n : Nat) (item : ProgramItem) : (placeItem p n item)[n]? = some item := by
  induction n generalizing p with
  | zero => cases p <;> rfl
  | succ n ih => cases p <;> simp [placeItem, ih]

end Sys2Proof.Machine
end

