-- ==== Sys2Proof/Laws/Exec.lean ====
section
/-! SUPPORT. The inversion lemmas of a step: every next state of any instruction is one of four, taking a turn is one
of two, and a step is a turn followed by an instruction. -/

namespace Sys2Proof.Machine

/-- The core's checked operations answer OK, InvalidInputLength or ChecksumMismatch. -/
def checkedResponses (r : Response) : Prop := ∃ b, r = coreCrc5 b ∨ r = coreDecode b ∨ r = coreVerify b

/-- Every next state of `exec` is that of a session fault, of a delivered checked operation, of an ENCODE, or of an
EXCHANGE (R214). -/
theorem exec_next {i : Instr} {s t : State} (h : exec i s = .next t) :
    s.dev.fault = [] ∧
      ((∃ e, t = recordFault e s) ∨
        (∃ r, checkedResponses r ∧ r.status ≠ .invalidInputLength ∧ t = deliver r (advance s)) ∨
        (∃ reg dir data, issueEncode reg dir data s = .next t) ∨
        (i = .exchange ∧ issueExchange s = .next t)) := by
  have checked : ∀ r, checkedResponses r → issueChecked r s = .next t →
      s.dev.fault = [] ∧ ((∃ e, t = recordFault e s) ∨
        (∃ r, checkedResponses r ∧ r.status ≠ .invalidInputLength ∧ t = deliver r (advance s)) ∨
        (∃ reg dir data, issueEncode reg dir data s = .next t) ∨ (i = .exchange ∧ issueExchange s = .next t)) := by
    intro r hr h
    obtain ⟨hf, ⟨-, ht⟩ | ⟨hs, ht⟩⟩ := issueChecked_next h
    · exact ⟨hf, .inl ⟨_, ht⟩⟩
    · exact ⟨hf, .inr (.inl ⟨r, hr, hs, ht⟩)⟩
  have encoded : ∀ reg dir data, issueEncode reg dir data s = .next t →
      s.dev.fault = [] ∧ ((∃ e, t = recordFault e s) ∨
        (∃ r, checkedResponses r ∧ r.status ≠ .invalidInputLength ∧ t = deliver r (advance s)) ∨
        (∃ reg dir data, issueEncode reg dir data s = .next t) ∨ (i = .exchange ∧ issueExchange s = .next t)) :=
    fun reg dir data h => ⟨(issueEncode_next h).1, .inr (.inr (.inl ⟨reg, dir, data, h⟩))⟩
  cases i with
  | crc5 b => exact checked _ ⟨b, .inl rfl⟩ h
  | encode reg dir data => exact encoded reg dir data h
  | decode b => exact checked _ ⟨b, .inr (.inl rfl)⟩ h
  | verify b => exact checked _ ⟨b, .inr (.inr rfl)⟩ h
  | exchange => exact ⟨(issueExchange_next h).1, .inr (.inr (.inr ⟨rfl, h⟩))⟩
  | read reg => exact encoded _ _ _ h
  | write reg data => exact encoded _ _ _ h
  | check b0 b1 b2 => exact checked _ ⟨_, .inr (.inr rfl)⟩ h
  | frameOutRead a r v c => exact encoded _ _ _ (issueFrame_next h).2
  | frameOutWrite a r v c => exact encoded _ _ _ (issueFrame_next h).2
  | frameInRead r v c => exact encoded _ _ _ (issueFrame_next h).2
  | frameInWrite r v c => exact encoded _ _ _ (issueFrame_next h).2
  | frameResponse st0 rdata st2 rxcrc => exact checked _ ⟨_, .inr (.inl rfl)⟩ h

/-- Taking no turn keeps the state. -/
@[simp] theorem takeTurn_of_no_turns {s : State} (h : s.turns = []) : takeTurn s = s := by
  unfold takeTurn; rw [h]

/-- Everything taking a turn can do: use up the first turn, if there is one, and keep every session in its place, when
the turn names none of the others; or exchange the current session with the one it names. -/
theorem takeTurn_cases (s : State) :
    ((∀ k rest, s.turns = (k + 1) :: rest → s.others[k]? = none) ∧ takeTurn s = { s with turns := s.turns.tail }) ∨
    ∃ k rest d, s.turns = (k + 1) :: rest ∧ s.others[k]? = some d ∧
      takeTurn s = { s with dev := d, others := s.others.set k s.dev, turns := rest } := by
  obtain ⟨dev, others, turns, bus, draws⟩ := s
  match turns with
  | [] => exact .inl ⟨by simp, rfl⟩
  | 0 :: rest => exact .inl ⟨by simp, rfl⟩
  | (k + 1) :: rest =>
    cases h : others[k]? with
    | none => exact .inl ⟨fun k' rest' he => by cases he; exact h, by simp [takeTurn, h]⟩
    | some d => exact .inr ⟨k, rest, d, rfl, h, by simp [takeTurn, h]⟩

/-- A next state of `step` is one of `exec` on the fetched and decoded instruction, after the turn. -/
theorem step_next {s t : State} (h : step s = .next t) :
    ∃ item i, fetchItem (takeTurn s) = some item ∧
      decodeItem (takeTurn s).dev.config.variant item = .ok i ∧ exec i (takeTurn s) = .next t := by
  unfold step at h
  split at h
  · cases hitem : fetchItem (takeTurn s) with
    | none => rw [hitem] at h; cases h
    | some item =>
      cases hd : decodeItem (takeTurn s).dev.config.variant item with
      | error e => cases e; simp [hitem, hd] at h
      | ok i => exact ⟨item, i, rfl, hd, by simpa [hitem, hd] using h⟩
  · cases h

end Sys2Proof.Machine
end

