-- ==== Sys2Proof/Laws/Frames.lean ====
section
/-! SUPPORT. Bit i of each word that is put together from fields. -/

namespace Sys2Proof.Machine

/-- Bit i of a frame's 24-bit value (R41). -/
theorem frameValue_getLsbD (f : Frame) (i : Nat) :
    (frameValue f).getLsbD i =
      if i < 8 then f.b2.getLsbD i else if i < 16 then f.b1.getLsbD (i - 8) else f.b0.getLsbD (i - 16) := by
  change (f.b0 ++ f.b1 ++ f.b2 : BitVec (8 + 8 + 8)).getLsbD i = _
  simp only [BitVec.getLsbD_append]
  by_cases h : i < 8
  · simp [h]
  · by_cases h' : i < 16
    · simp [h, h', show i - 8 < 8 by omega]
    · simp [h, h', show ¬ i - 8 < 8 by omega, show i - 8 - 8 = i - 16 by omega]

/-- Bit i of the CRC payload (R26). -/
theorem crcPayload_getLsbD (f : Frame) (i : Nat) :
    (crcPayload f).getLsbD i =
      if i < 3 then f.b2.getLsbD (i + 5) else if i < 11 then f.b1.getLsbD (i - 3) else f.b0.getLsbD (i - 11) := by
  change (f.b0 ++ f.b1 ++ f.b2.extractLsb' 5 3 : BitVec (8 + 8 + 3)).getLsbD i = _
  simp only [BitVec.getLsbD_append, BitVec.getLsbD_extractLsb']
  by_cases h : i < 3
  · simp [h, Nat.add_comm]
  · by_cases h' : i < 11
    · simp [h, h', show i - 3 < 8 by omega]
    · simp [h, h', show ¬ i - 3 < 8 by omega, show i - 3 - 8 = i - 11 by omega]

/-- Bit i of the working value (R27). -/
theorem workingValue_getLsbD (p : BitVec 19) (i : Nat) :
    (workingValue p).getLsbD i = if i < 5 then Config.init.getLsbD i else p.getLsbD (i - 5) := by
  change (p ++ Config.init : BitVec (19 + 5)).getLsbD i = _
  simp only [BitVec.getLsbD_append]

/-- Bit i of an OUT command frame word (R63). -/
theorem outFrameWord_getLsbD (a : BitVec 2) (r : BitVec 5) (d : Direction) (v : Byte) (c : Crc) (i : Nat) :
    (outFrameWord a r d v c).getLsbD i =
      if i < 5 then c.getLsbD i else if i < 8 then false else if i < 16 then v.getLsbD (i - 8)
      else if i < 17 then (directionBit d).getLsbD (i - 16) else if i < 22 then r.getLsbD (i - 17)
      else a.getLsbD (i - 22) := by
  change (a ++ r ++ directionBit d ++ v ++ 0b000#3 ++ c : BitVec (2 + 5 + 1 + 8 + 3 + 5)).getLsbD i = _
  simp only [BitVec.getLsbD_append]
  split_ifs <;> first
    | (exfalso; omega)
    | (simp only [BitVec.getLsbD_zero])
    | (congr 1; omega)
    | rfl

/-- Bit i of an IN command frame word (R64). -/
theorem inFrameWord_getLsbD (d : Direction) (r : BitVec 7) (v : Byte) (c : Crc) (i : Nat) :
    (inFrameWord d r v c).getLsbD i =
      if i < 5 then c.getLsbD i else if i < 8 then false else if i < 16 then v.getLsbD (i - 8)
      else if i < 23 then r.getLsbD (i - 16) else (directionBit d).getLsbD (i - 23) := by
  change (directionBit d ++ r ++ v ++ 0b000#3 ++ c : BitVec (1 + 7 + 8 + 3 + 5)).getLsbD i = _
  simp only [BitVec.getLsbD_append]
  split_ifs <;> first
    | (exfalso; omega)
    | (simp only [BitVec.getLsbD_zero])
    | (congr 1; omega)
    | rfl

/-- Bit i of a response frame word (R67). -/
theorem responseFrameWord_getLsbD (s v : Byte) (t : BitVec 3) (c : Crc) (i : Nat) :
    (responseFrameWord s v t c).getLsbD i =
      if i < 5 then c.getLsbD i else if i < 8 then t.getLsbD (i - 5) else if i < 16 then v.getLsbD (i - 8)
      else s.getLsbD (i - 16) := by
  change (s ++ v ++ t ++ c : BitVec (8 + 8 + 3 + 5)).getLsbD i = _
  simp only [BitVec.getLsbD_append]
  split_ifs <;> first
    | (exfalso; omega)
    | (congr 1; omega)
    | rfl

end Sys2Proof.Machine
end

