-- ==== Sys2Proof/Laws/PerInstr.lean ====
section
/-! SUPPORT. Laws made per instruction: family TablePattern, the item of every instruction has the fixed bits of its
row in spec/opcode_table.json. -/

namespace Sys2Proof.Laws.TablePattern

open Sys2Proof.Machine

/-- The (match, mask) pair of the row whose words the instruction's item has; a pseudo-operation has its expansion's
(R75), EXCHANGE has no OP value and no word (R74). -/
def row : Instr → Option (BitVec 24 × BitVec 24)
  | .crc5 _ => some (0x000000#24, 0x000003#24)
  | .encode _ _ _ => some (0x000001#24, 0x000003#24)
  | .decode _ => some (0x000002#24, 0x000003#24)
  | .verify _ => some (0x000003#24, 0x000003#24)
  | .exchange => none
  | .read _ => some (0x000001#24, 0x000003#24)
  | .write _ _ => some (0x000001#24, 0x000003#24)
  | .check _ _ _ => some (0x000003#24, 0x000003#24)
  | .frameOutRead _ _ _ _ => some (0x000000#24, 0x0100e0#24)
  | .frameOutWrite _ _ _ _ => some (0x010000#24, 0x0100e0#24)
  | .frameInRead _ _ _ => some (0x000000#24, 0x8000e0#24)
  | .frameInWrite _ _ _ => some (0x800000#24, 0x8000e0#24)
  | .frameResponse _ _ _ _ => some (0x000000#24, 0x000000#24)

/-- The word of an item: a request's OP bits, a frame's 24 bits. -/
def itemWord : ProgramItem → Option (BitVec 24)
  | .request r => some (r.op.setWidth 24)
  | .exchange => none
  | .commandFrame fv => some fv
  | .responseFrame fv => some fv

/-- The word of the instruction's item has its row's fixed bits. -/
def Statement (i : Instr) : Prop :=
  ∀ w p, itemWord (Sys2Proof.encode i) = some w → row i = some p → w &&& p.2 = p.1

theorem crc5 (b : List Byte) : Statement (.crc5 b) := by
  rintro w p ⟨⟩ ⟨⟩; change (0#2).setWidth 24 &&& 3#24 = 0#24; decide
theorem encode (reg : Byte) (dir : Direction) (data : Byte) : Statement (.encode reg dir data) := by
  rintro w p ⟨⟩ ⟨⟩; change (1#2).setWidth 24 &&& 3#24 = 1#24; decide
theorem decode (b : List Byte) : Statement (.decode b) := by
  rintro w p ⟨⟩ ⟨⟩; change (2#2).setWidth 24 &&& 3#24 = 2#24; decide
theorem verify (b : List Byte) : Statement (.verify b) := by
  rintro w p ⟨⟩ ⟨⟩; change (3#2).setWidth 24 &&& 3#24 = 3#24; decide
theorem exchange : Statement .exchange := by
  rintro w p ⟨⟩
theorem read (reg : Byte) : Statement (.read reg) := by
  rintro w p ⟨⟩ ⟨⟩; change (1#2).setWidth 24 &&& 3#24 = 1#24; decide
theorem write (reg data : Byte) : Statement (.write reg data) := by
  rintro w p ⟨⟩ ⟨⟩; change (1#2).setWidth 24 &&& 3#24 = 1#24; decide
theorem check (b0 b1 b2 : Byte) : Statement (.check b0 b1 b2) := by
  rintro w p ⟨⟩ ⟨⟩; change (3#2).setWidth 24 &&& 3#24 = 3#24; decide
theorem frameOutRead (a : BitVec 2) (r : BitVec 5) (v : Byte) (c : Crc) : Statement (.frameOutRead a r v c) := by
  rintro w p ⟨⟩ ⟨⟩
  refine BitVec.eq_of_getLsbD_eq fun i hi => ?_
  rw [BitVec.getLsbD_and, outFrameWord_getLsbD]
  interval_cases i <;> simp [directionBit]
theorem frameOutWrite (a : BitVec 2) (r : BitVec 5) (v : Byte) (c : Crc) : Statement (.frameOutWrite a r v c) := by
  rintro w p ⟨⟩ ⟨⟩
  refine BitVec.eq_of_getLsbD_eq fun i hi => ?_
  rw [BitVec.getLsbD_and, outFrameWord_getLsbD]
  interval_cases i <;> simp [directionBit]
theorem frameInRead (r : BitVec 7) (v : Byte) (c : Crc) : Statement (.frameInRead r v c) := by
  rintro w p ⟨⟩ ⟨⟩
  refine BitVec.eq_of_getLsbD_eq fun i hi => ?_
  rw [BitVec.getLsbD_and, inFrameWord_getLsbD]
  interval_cases i <;> simp [directionBit]
theorem frameInWrite (r : BitVec 7) (v : Byte) (c : Crc) : Statement (.frameInWrite r v c) := by
  rintro w p ⟨⟩ ⟨⟩
  refine BitVec.eq_of_getLsbD_eq fun i hi => ?_
  rw [BitVec.getLsbD_and, inFrameWord_getLsbD]
  interval_cases i <;> simp [directionBit]
theorem frameResponse (s v : Byte) (t : BitVec 3) (c : Crc) : Statement (.frameResponse s v t c) := by
  rintro w p ⟨⟩ ⟨⟩; simp

end Sys2Proof.Laws.TablePattern
end

