-- ==== Sys2Proof/Tests/Slice0.lean ====
section
/-! SUPPORT. Tests: the well-formedness smoke, decoding of words written out from the spec's encodings, the spec's own
vectors (spec/95_test_vectors.md), and a witness for the hypotheses of each statement. Expected values are the
spec's; each test names its table. -/

namespace Sys2Proof.Tests

open Sys2Proof.Machine

/-- The device of the vector tables: every index that fits the field is in the set (95_test_vectors.md §2.2). -/
def outDevice (chip : BitVec 2) : DeviceConfig := ⟨.outDriver, chip, (List.range 32).map (BitVec.ofNat 8)⟩

/-- The input-receiver device of the vector tables. -/
def inDevice : DeviceConfig := ⟨.inReceiver, 0#2, (List.range 128).map (BitVec.ofNat 8)⟩

/-- A machine with one session: a device, a pending frame, scripted answers and a program. -/
def machine (cfg : DeviceConfig) (pending : Option Frame) (answers : List TransportAnswer)
    (program : List Instr) : State :=
  { State.reset with dev := { newSession cfg (program.map encode) answers with pending := pending } }

/-- A machine whose session has faulted. -/
def faultedMachine : State := recordFault .protocolHazard (machine (outDevice 0#2) none [] [])

/-- The current session after an outcome, if it is a next state. -/
def sessionAfter (o : Host.Outcome State Fault Refusal) : Option Session :=
  match o with
  | .next t => some t.dev
  | .fault _ => none
  | .refused _ => none

/-- The last response delivered after an outcome. -/
def lastResponse (o : Host.Outcome State Fault Refusal) : Option Response :=
  (sessionAfter o).bind fun d => d.delivered.getLast?

/-- The pending frame after an outcome. -/
def pendingAfter (o : Host.Outcome State Fault Refusal) : Option (Option Frame) := (sessionAfter o).map Session.pending

/-! ### Well-formedness -/

theorem test_wf_out_read_refuses_stale_checksum :
    (Instr.frameOutRead 2#2 0x13#5 0x00#8 0x00#5).wellFormed = false ∧
    (Instr.frameOutRead 2#2 0x13#5 0x00#8 0x02#5).wellFormed = true := by decide +kernel
theorem test_wf_out_write_refuses_stale_checksum :
    (Instr.frameOutWrite 3#2 0x1f#5 0x23#8 0x0d#5).wellFormed = false ∧
    (Instr.frameOutWrite 3#2 0x1f#5 0x23#8 0x0c#5).wellFormed = true := by decide +kernel
theorem test_wf_in_read_refuses_stale_checksum :
    (Instr.frameInRead 0x01#7 0x01#8 0x12#5).wellFormed = false ∧
    (Instr.frameInRead 0x01#7 0x01#8 0x13#5).wellFormed = true := by decide +kernel
theorem test_wf_in_write_refuses_stale_checksum :
    (Instr.frameInWrite 0x26#7 0x00#8 0x1f#5).wellFormed = false ∧
    (Instr.frameInWrite 0x26#7 0x00#8 0x02#5).wellFormed = true := by decide +kernel
theorem test_legal_refuses_wide_register_and_wrong_length :
    (Instr.encode 0x20#8 .read 0x00#8).legal (outDevice 0#2) = false ∧
    (Instr.read 0x20#8).legal (outDevice 0#2) = false ∧ (Instr.write 0x20#8 0x00#8).legal (outDevice 0#2) = false ∧
    (Instr.crc5 [0x01#8, 0x00#8]).legal (outDevice 0#2) = false ∧
    (Instr.decode [0x01#8, 0x00#8]).legal (outDevice 0#2) = false ∧
    (Instr.verify []).legal (outDevice 0#2) = false ∧
    (Instr.frameInRead 0x7f#7 0x00#8 0x00#5).legal (outDevice 0#2) = false := by decide
theorem test_legal_refuses_registers_outside_the_set :
    (Instr.frameOutRead 0#2 0x13#5 0x00#8 0x00#5).legal ⟨.outDriver, 0#2, [0x12#8]⟩ = false ∧
    (Instr.frameOutWrite 0#2 0x13#5 0x00#8 0x00#5).legal ⟨.outDriver, 0#2, [0x12#8]⟩ = false ∧
    (Instr.frameInWrite 0x13#7 0x00#8 0x00#5).legal ⟨.inReceiver, 0#2, [0x12#8]⟩ = false ∧
    (Instr.frameOutRead 0#2 0x12#5 0x00#8 0x00#5).legal ⟨.outDriver, 0#2, [0x12#8]⟩ = true := by decide

/-! ### Decoding: words from R61, R63, R64, R67 and the opcode table -/

theorem test_decode_op_00_crc5 :
    decodeRequest ⟨0b00#2, 0xff#8, 1#1, 0xff#8, [0x01#8]⟩ = .crc5 [0x01#8] := by decide
theorem test_decode_op_01_encode :
    decodeRequest ⟨0b01#2, 0x13#8, 0#1, 0x5a#8, [0x01#8]⟩ = .encode 0x13#8 .read 0x5a#8 := by decide
theorem test_decode_op_10_decode :
    decodeRequest ⟨0b10#2, 0x13#8, 0#1, 0x5a#8, [0x03#8, 0x5a#8, 0x10#8]⟩ = .decode [0x03#8, 0x5a#8, 0x10#8] := by
  decide
theorem test_decode_op_11_verify :
    decodeRequest ⟨0b11#2, 0x13#8, 0#1, 0x5a#8, []⟩ = .verify [] := by decide
/-- R63, written bit by bit: A = 10, R = 10011, d = 0, V = 00000000, 000, C = 00010 (source vector 1). -/
theorem test_decode_out_read :
    decodeItem .outDriver (.commandFrame 0b101001100000000000000010#24)
      = .ok (.frameOutRead 0b10#2 0b10011#5 0x00#8 0b00010#5) := by rfl
theorem test_decode_out_write :
    decodeItem .outDriver (.commandFrame 0b111111110010001100001100#24)
      = .ok (.frameOutWrite 0b11#2 0b11111#5 0x23#8 0b01100#5) := by rfl
theorem test_decode_in_read :
    decodeItem .inReceiver (.commandFrame 0b000000010000000100010011#24)
      = .ok (.frameInRead 0b0000001#7 0x01#8 0b10011#5) := by rfl
/-- R73's example, the same 24 bits as `test_decode_out_read`. -/
theorem test_decode_in_write :
    decodeItem .inReceiver (.commandFrame 0b101001100000000000000010#24)
      = .ok (.frameInWrite 0b0100110#7 0x00#8 0b00010#5) := by rfl
theorem test_decode_response :
    decodeItem .inReceiver (.responseFrame 0b000000110101101000110000#24)
      = .ok (.frameResponse 0x03#8 0x5a#8 0b001#3 0x10#5) := by rfl
theorem test_decode_refuses_upper_bits :
    decodeItem .outDriver (.commandFrame 0x000020#24) = .error .commandFrameUpperBits := by rfl
theorem test_decode_table_words :
    decodeTableWord 8 2 = some (.decode [0x00#8, 0x00#8, 0x00#8]) ∧
    decodeTableWord 8 1 = some (.encode 0x00#8 .read 0x00#8) ∧ decodeTableWord 0 0 = some .exchange ∧
    decodeTableWord 24 0x010000 = some (.frameOutWrite 0#2 0#5 0x00#8 0#5) := by decide
theorem test_decode_pseudo_words_are_the_expansion :
    decodeItem .outDriver (encode (.read 0x01#8)) = .ok (.encode 0x01#8 .read 0x00#8) := by rfl
theorem test_assemble_encode :
    assembleLine ⟨"ENCODE", [.byte 0x13#8, .dir .read, .byte 0x00#8]⟩ = some (.encode 0x13#8 .read 0x00#8) := by decide
theorem test_asm_text :
    lineText ⟨"DECODE", [.byte 0x03#8, .byte 0x5a#8, .byte 0x10#8]⟩ = "DECODE 0x03, 0x5a, 0x10" := by decide +kernel

/-! ### CRC5: §1.1, §1.2 (the step trace of a6 00 00), §2.1 -/

theorem test_crc5_source_vectors :
    coreCrc5 [0xff#8, 0x23#8, 0x00#8] = { status := .ok, crc := some 0x0c#5 } ∧
    coreCrc5 [0x01#8, 0x01#8, 0x00#8] = { status := .ok, crc := some 0x13#5 } := by decide +kernel
theorem test_crc5_trace_of_a60000 :
    (List.range 19).map (fun k => crcAcc (workingValue (crcPayload ⟨0xa6#8, 0x00#8, 0x00#8⟩)) (k + 1)) =
      [0b011100#6, 0b001100#6, 0b011000#6, 0b000101#6, 0b001010#6, 0b010100#6, 0b011101#6, 0b001111#6, 0b011110#6,
       0b001001#6, 0b010010#6, 0b010001#6, 0b010111#6, 0b011011#6, 0b000011#6, 0b000110#6, 0b001101#6, 0b011011#6,
       0b000010#6] := by decide +kernel
theorem test_crc5_byte2_upper_bits_are_payload :
    coreCrc5 [0x00#8, 0x00#8, 0x20#8] = { status := .ok, crc := some 0x12#5 } ∧
    coreCrc5 [0x00#8, 0x00#8, 0x1f#8] = { status := .ok, crc := some 0x07#5 } := by decide +kernel
theorem test_crc5_length_4 : coreCrc5 [0x01#8, 0x00#8, 0x00#8, 0x00#8] = { status := .invalidInputLength } := by decide

/-! ### ENCODE: §2.2 -/

theorem test_encode_out_write :
    coreEncode (outDevice 0#2) 0x01#8 .write 0x5a#8 = { status := .ok, frame := some ⟨0x03#8, 0x5a#8, 0x10#8⟩ } := by
  decide +kernel
theorem test_encode_in_write_ignores_chip_address :
    coreEncode { inDevice with chipAddr := 3#2 } 0x11#8 .write 0x22#8
      = { status := .ok, frame := some ⟨0x91#8, 0x22#8, 0x12#8⟩ } := by decide +kernel
theorem test_encode_chip_address_sweep :
    (coreEncode (outDevice 1#2) 0x01#8 .write 0x00#8).frame = some ⟨0x43#8, 0x00#8, 0x0a#8⟩ ∧
    (coreEncode (outDevice 2#2) 0x01#8 .write 0x00#8).frame = some ⟨0x83#8, 0x00#8, 0x17#8⟩ := by decide +kernel
theorem test_encode_limits :
    coreEncode ⟨.outDriver, 0#2, [0x20#8]⟩ 0x20#8 .read 0x00#8 = { status := .invalidRegister } ∧
    coreEncode ⟨.inReceiver, 0#2, [0x80#8]⟩ 0x80#8 .read 0x00#8 = { status := .invalidRegister } ∧
    (coreEncode inDevice 0x7f#8 .write 0xff#8).frame = some ⟨0xff#8, 0xff#8, 0x02#8⟩ := by decide +kernel

/-! ### DECODE and VERIFY: §2.4 -/

theorem test_decode_bit_fields :
    coreDecode [0x03#8, 0x5a#8, 0x30#8] =
      { status := .ok, rdata := some 0x5a#8, st0 := some 0x03#8, st2 := some 0b001#3, rxcrc := some 0x10#5 } := by
  decide
theorem test_verify_mismatch_returns_fields :
    coreVerify [0x01#8, 0x00#8, 0x04#8] =
      { status := .checksumMismatch, crc := some 0x05#5, rdata := some 0x00#8, st0 := some 0x01#8, st2 := some 0b000#3,
        rxcrc := some 0x04#5 } := by decide +kernel
theorem test_verify_ok : (coreVerify [0x03#8, 0x5a#8, 0x10#8]).status = .ok := by decide +kernel

/-! ### Session steps: §2.5 and one step of the programs of Part 3 -/

theorem test_session_read_sets_pending :
    pendingAfter (step (machine (outDevice 0#2) none [] [.read 0x01#8])) = some (some ⟨0x02#8, 0x00#8, 0x03#8⟩) := by
  decide +kernel
theorem test_session_write_of_p1 :
    pendingAfter (exec (.write 0x05#8 0xa5#8) (machine (outDevice 1#2) none [] [])) =
      some (some ⟨0x4b#8, 0xa5#8, 0x07#8⟩) := by decide +kernel
theorem test_session_exchange_failure :
    (sessionAfter (exec .exchange (machine (outDevice 0#2) (some ⟨0x02#8, 0x00#8, 0x03#8⟩) [.failure] []))).map
      (fun d => (d.pending, d.fault, d.delivered)) = some (none, [], [{ status := .transportFailure }]) := by decide
theorem test_session_exchange_without_pending :
    (sessionAfter (exec .exchange (machine (outDevice 0#2) none [] []))).map (fun d => (d.pc, d.fault, d.delivered)) =
      some (0, [⟨.protocolHazard, 0⟩], []) := by decide
theorem test_session_second_read_faults :
    (sessionAfter (exec (.read 0x02#8) (machine (outDevice 3#2) (some ⟨0xc2#8, 0x00#8, 0x1e#8⟩) [] []))).map
      (fun d => (d.pending, d.fault)) = some (some ⟨0xc2#8, 0x00#8, 0x1e#8⟩, [⟨.protocolHazard, 0⟩]) := by decide
theorem test_session_wrong_length_faults :
    (sessionAfter (exec (.crc5 [0x04#8, 0x10#8]) (machine (outDevice 0#2) none [] []))).map
      (fun d => (d.pc, d.fault, d.delivered)) = some (0, [⟨.invalidInputLength, 0⟩], []) := by decide
theorem test_session_check_of_p3 :
    lastResponse (exec (.check 0x04#8 0x10#8 0x11#8) (machine (outDevice 0#2) none [] [])) =
      some { status := .checksumMismatch, crc := some 0x13#5, rdata := some 0x10#8, st0 := some 0x04#8,
             st2 := some 0b000#3, rxcrc := some 0x11#5 } := by decide +kernel
theorem test_frame_out_read_row :
    pendingAfter (exec (.frameOutRead 2#2 0x13#5 0x00#8 0x02#5) (machine (outDevice 2#2) none [] [])) =
      some (some ⟨0xa6#8, 0x00#8, 0x02#8⟩) := by decide +kernel
theorem test_frame_out_write_row :
    pendingAfter (exec (.frameOutWrite 3#2 0x1f#5 0x23#8 0x0c#5) (machine (outDevice 3#2) none [] [])) =
      some (some ⟨0xff#8, 0x23#8, 0x0c#8⟩) := by decide +kernel
theorem test_frame_in_rows :
    pendingAfter (exec (.frameInRead 0x01#7 0x01#8 0x13#5) (machine inDevice none [] [])) =
      some (some ⟨0x01#8, 0x01#8, 0x13#8⟩) ∧
    pendingAfter (exec (.frameInWrite 0x26#7 0x00#8 0x02#5) (machine inDevice none [] [])) =
      some (some ⟨0xa6#8, 0x00#8, 0x02#8⟩) := by decide +kernel
theorem test_frame_response_row :
    lastResponse (exec (.frameResponse 0x03#8 0x5a#8 0b000#3 0x10#5) (machine (outDevice 0#2) none [] [])) =
      some { status := .ok, rdata := some 0x5a#8, st0 := some 0x03#8, st2 := some 0b000#3, rxcrc := some 0x10#5 } := by
  decide
theorem test_reset_has_no_program : (sessionAfter (step State.reset)) = none := by decide
theorem test_word_runs_first_after_reset :
    pendingAfter (step (State.reset.withFetchWord 24 0x010000)) = some (some ⟨0x01#8, 0x00#8, 0x05#8⟩) := by
  decide +kernel
theorem test_turn_makes_another_session_current :
    (takeTurn { machine (outDevice 0#2) none [] [] with
        others := [newSession inDevice [] []], turns := [1, 0] }).dev.config.variant = .inReceiver := by decide

/-! ### Witnesses: a concrete state and operands that meet the hypotheses of each statement -/

theorem witness_EveryStepKeepsTheInvariant :
    ∃ s t : State, State.Inv s ∧ step s = .next t :=
  ⟨machine (outDevice 0#2) none [] [.decode [0x01#8, 0x00#8, 0x05#8]], _,
    ⟨⟨by simp [machine, newSession], by simp [machine, newSession], by simp [machine, newSession],
      by simp [machine, newSession], by simp [machine, newSession], by simp [machine, newSession],
      by simp [machine, newSession]⟩, by simp [machine, State.reset], rfl, by simp [machine, State.reset, sentFrames]⟩,
    rfl⟩
theorem witness_next_that_delivers :
    ∃ t, exec (.decode [0x01#8, 0x00#8, 0x05#8]) (machine (outDevice 0#2) none [] []) = .next t ∧
      t.dev.fault = [] := ⟨_, rfl, rfl⟩
theorem witness_next_that_faults :
    ∃ t, exec .exchange (machine (outDevice 0#2) none [] []) = .next t ∧ t.dev.fault ≠ [] :=
  ⟨_, rfl, by decide⟩
theorem witness_next_that_sets_pending :
    ∃ t, exec (.read 0x1f#8) (machine (outDevice 0#2) none [] []) = .next t ∧ t.dev.pending ≠ none :=
  ⟨_, rfl, by decide +kernel⟩
theorem witness_next_that_clears_pending :
    ∃ t, exec .exchange (machine (outDevice 0#2) (some ⟨0x02#8, 0x00#8, 0x03#8⟩) [.failure] []) = .next t ∧
      t.dev.pending = none := ⟨_, rfl, by decide⟩
theorem witness_step_with_another_session :
    ∃ t, step { machine (outDevice 0#2) none [] [] with
        others := [newSession inDevice [encode (.decode [0x01#8, 0x00#8, 0x05#8])] []], turns := [1] } = .next t :=
  ⟨_, rfl⟩
theorem witness_faulted : faultedMachine.dev.fault ≠ [] ∧ (takeTurn faultedMachine).dev.fault ≠ [] := by decide
theorem witness_NoStepPastTheEndOfTheProgram :
    (takeTurn State.reset).dev.fault = [] ∧
      (takeTurn State.reset).dev.program.length ≤ (takeTurn State.reset).dev.pc := by decide
theorem witness_StepRunsTheDecodedInstruction :
    (takeTurn (machine inDevice none [] [.exchange])).dev.fault = [] ∧
    fetchItem (takeTurn (machine inDevice none [] [.exchange])) = some .exchange ∧
    decodeItem (takeTurn (machine inDevice none [] [.exchange])).dev.config.variant .exchange = .ok .exchange ∧
    (machine inDevice none [] [.exchange]).turns = [] := ⟨rfl, rfl, rfl, rfl⟩
theorem witness_PlacedWordIsTheNextInstruction :
    tableItem 24 0x800000 = some (.commandFrame 0x800000#24) ∧
    decodeItem State.reset.dev.config.variant (.commandFrame 0x800000#24) = .ok (.frameOutRead 2#2 0#5 0x00#8 0#5) :=
  ⟨rfl, rfl⟩
theorem witness_TurnsReorderSessionsAndReachEveryOne :
    let s : State := { machine (outDevice 1#2) none [] [] with others := [newSession inDevice [] []], turns := [1, 0] }
    s.turns = 1 :: [0] ∧ s.others[0]? = some (newSession inDevice [] []) ∧ s.dev ≠ newSession inDevice [] [] := by decide
theorem witness_TurnsReorderSessionsAndReachEveryOne_kept :
    let s : State := { machine (outDevice 1#2) none [] [] with others := [newSession inDevice [] []], turns := [2, 1] }
    ∀ (k : Nat) (rest : List Nat), s.turns = (k + 1) :: rest → s.others[k]? = none := by
  intro s k rest h
  obtain ⟨hk, -⟩ := List.cons.inj h
  obtain rfl : k = 1 := by omega
  rfl
theorem witness_SessionsDoNotInfluenceEachOther :
    ∃ s s' t : State, s.dev = s'.dev ∧ s.draws = s'.draws ∧ s.others ≠ s'.others ∧
      exec (.decode [0x01#8, 0x00#8, 0x05#8]) s = .next t :=
  ⟨machine inDevice none [] [], { machine inDevice none [] [] with others := [newSession inDevice [] []] }, _, rfl, rfl,
    by decide, rfl⟩
theorem witness_ARunIsCleanExactlyWhenTheContractIsKept :
    (machine (outDevice 1#2) none [.failure] [.write 0x05#8 0xa5#8, .exchange, .frameOutRead 1#2 0#5 0x00#8 0#5]).dev =
      newSession (outDevice 1#2)
        ([.write 0x05#8 0xa5#8, .exchange, .frameOutRead 1#2 0#5 0x00#8 0#5].map encode) [.failure] ∧
    (∀ i ∈ [Instr.write 0x05#8 0xa5#8, .exchange, .frameOutRead 1#2 0#5 0x00#8 0#5],
      layoutOf i = none ∨ layoutOf i = some (outDevice 1#2).variant) ∧
    keepsContract (outDevice 1#2) false [.write 0x05#8 0xa5#8, .exchange, .frameOutRead 1#2 0#5 0x00#8 0#5] = true ∧
    keepsContract (outDevice 1#2) false [.exchange] = false := ⟨rfl, by decide, by decide, by decide⟩
theorem witness_DecodeReadsBackEveryEncoding :
    layoutOf (.frameInWrite 0x26#7 0x00#8 0x02#5) = some .inReceiver ∧ layoutOf (.crc5 []) = none := by decide
theorem witness_EncodeGivesBackEveryDecodedFrame :
    decodeItem .outDriver (.commandFrame 0xff000c#24) = .ok (.frameOutWrite 3#2 0x1f#5 0x00#8 0x0c#5) ∧
    decodeItem .outDriver (.responseFrame 0xffffff#24) = .ok (.frameResponse 0xff#8 0xff#8 0b111#3 0x1f#5) :=
  ⟨rfl, rfl⟩
theorem witness_UnusedRequestFieldsAreIgnored :
    ∃ r r' : Request, r.op = r'.op ∧ r.op ≠ 0b01#2 ∧ r.b = r'.b ∧ r.data ≠ r'.data :=
  ⟨⟨0b11#2, 0x00#8, 0#1, 0x00#8, []⟩, ⟨0b11#2, 0x00#8, 0#1, 0x01#8, []⟩, by decide⟩
theorem witness_UnusedRequestFieldsAreIgnored_encode :
    ∃ r r' : Request, r.op = r'.op ∧ r.op = 0b01#2 ∧ r.reg = r'.reg ∧ r.dir = r'.dir ∧ r.data = r'.data ∧ r.b ≠ r'.b :=
  ⟨⟨0b01#2, 0x00#8, 0#1, 0x00#8, []⟩, ⟨0b01#2, 0x00#8, 0#1, 0x00#8, [0x01#8]⟩, by decide⟩
theorem witness_SameBitsSpellDifferentRequests :
    (0xffff1f#24).extractLsb' 5 3 = 0b000#3 ∧ (0xffff1f#24).extractLsb' 16 8 ≠ 0x00#8 ∧
    (0x00ff1f#24).extractLsb' 5 3 = 0b000#3 ∧ (0x00ff1f#24).extractLsb' 16 8 = 0x00#8 := by decide
theorem witness_MalformedCommandFramesAreRefused :
    let s : State := { State.reset with dev := newSession (outDevice 0#2) [.commandFrame 0x000020#24] [] }
    (takeTurn s).dev.fault = [] ∧ fetchItem (takeTurn s) = some (.commandFrame 0x000020#24) ∧
      (0x000020#24).extractLsb' 5 3 ≠ 0b000#3 := by decide
theorem witness_AssemblerReadsBackItsLines : asmLineOf .exchange = some ⟨"EXCHANGE", []⟩ := rfl
theorem witness_wrong_lengths :
    ([] : List Byte).length ≠ 3 ∧ [0x01#8, 0x00#8].length ≠ 3 ∧ [0x01#8, 0x00#8, 0x00#8, 0x00#8].length ≠ 3 := by decide
theorem witness_Crc5IgnoresTheChecksumField : (0xe0#8).extractLsb' 5 3 = (0xff#8).extractLsb' 5 3 := by decide
theorem witness_ChecksumIsTheRemainderModuloG :
    workingValue 0#19 = gf2Mul ((0#19).setWidth 24) 0b110101#24 ^^^ (0b00111#5).setWidth 24 := by decide +kernel
theorem witness_EverySingleOrOddChangeChangesTheChecksum :
    (18 : Nat) < 19 ∧ oddWeight 0b111#19 = true ∧ oddWeight 0b11#19 = false := by decide
theorem witness_UndetectedTwoBitChangesAreFifteenApart : (18 : Nat) < 19 ∧ (3 : Nat) < 18 ∧ (18 : Nat) = 3 + 15 := by decide
theorem witness_running : (machine (outDevice 0#2) none [] []).dev.fault = [] ∧
    (machine (outDevice 0#2) none [] []).dev.pending = none ∧
    registerAccepted (machine (outDevice 0#2) none [] []).dev.config 0x1f#8 = true := by decide
theorem witness_register_boundaries :
    ((0x1f#8).toNat < 32 ∧ 0x1f#8 ∈ (outDevice 0#2).regset) ∧ ¬ ((0x20#8).toNat < 32 ∧ 0x20#8 ∈ (outDevice 0#2).regset) ∧
    ((0x7f#8).toNat < 128 ∧ 0x7f#8 ∈ inDevice.regset) ∧ ¬ ((0x80#8).toNat < 128 ∧ 0x80#8 ∈ inDevice.regset) := by
  decide
theorem witness_encoded_frames :
    coreEncode (outDevice 2#2) 0x1f#8 .read 0x80#8 = { status := .ok, frame := some ⟨0xbe#8, 0x80#8, 0x06#8⟩ } ∧
    coreEncode (outDevice 2#2) 0x1f#8 .write 0x80#8 = { status := .ok, frame := some ⟨0xbf#8, 0x80#8, 0x04#8⟩ } ∧
    coreEncode inDevice 0x55#8 .read 0xc3#8 = { status := .ok, frame := some ⟨0x55#8, 0xc3#8, 0x07#8⟩ } ∧
    coreEncode inDevice 0x55#8 .write 0xc3#8 = { status := .ok, frame := some ⟨0xd5#8, 0xc3#8, 0x11#8⟩ } := by
  decide +kernel
theorem witness_VerifyChecksAResponse :
    coreCrc5 [0x01#8, 0x00#8, 0x05#8] = { status := .ok, crc := some 0x05#5 } ∧ 0x05#5 = (0x05#8).extractLsb' 0 5 ∧
    coreCrc5 [0x01#8, 0x00#8, 0x04#8] = { status := .ok, crc := some 0x05#5 } ∧ 0x05#5 ≠ (0x04#8).extractLsb' 0 5 := by
  decide +kernel
theorem witness_single_bit_errors :
    (coreVerify (frameBytes ⟨0x03#8, 0x5a#8, 0x10#8⟩)).status = .ok ∧
    frameValue ⟨0x83#8, 0x5a#8, 0x10#8⟩ = frameValue ⟨0x03#8, 0x5a#8, 0x10#8⟩ ^^^ (1#24 <<< 23) ∧
    frameValue ⟨0x03#8, 0x5a#8, 0x11#8⟩ = frameValue ⟨0x03#8, 0x5a#8, 0x10#8⟩ ^^^ (1#24 <<< 0) := by decide +kernel
theorem witness_LoopbackSessionDeliversTheDataByte :
    let s := machine (outDevice 1#2) none [.response ⟨0x4b#8, 0xa5#8, 0x07#8⟩] []
    s.dev.fault = [] ∧ s.dev.pending = none ∧ registerAccepted s.dev.config 0x05#8 = true ∧
      s.dev.answers = .response (buildFrame s.dev.config 0x05#8 .write 0xa5#8) :: [] := by decide +kernel
theorem witness_BrokenContractFaultsTheSession :
    (machine inDevice (some ⟨0x02#8, 0x00#8, 0x03#8⟩) [] []).dev.pending ≠ none ∧
    (machine inDevice (some ⟨0x02#8, 0x00#8, 0x03#8⟩) [] []).dev.fault = [] ∧
    registerAccepted (machine inDevice (some ⟨0x02#8, 0x00#8, 0x03#8⟩) [] []).dev.config 0xff#8 = false := by decide
theorem witness_exchanges :
    let s := machine inDevice (some ⟨0x02#8, 0x00#8, 0x03#8⟩) [.response ⟨0x12#8, 0x34#8, 0x00#8⟩] []
    let u := machine inDevice (some ⟨0x02#8, 0x00#8, 0x03#8⟩) [] []
    let w := machine inDevice none [.failure] []
    s.dev.fault = [] ∧ s.dev.pending = some ⟨0x02#8, 0x00#8, 0x03#8⟩ ∧
      s.dev.answers = .response ⟨0x12#8, 0x34#8, 0x00#8⟩ :: [] ∧ u.dev.fault = [] ∧
      u.dev.pending = some ⟨0x02#8, 0x00#8, 0x03#8⟩ ∧ u.dev.answers = [] ∧ w.dev.fault = [] ∧ w.dev.pending = none ∧
      w.dev.answers = .failure :: [] := by decide
theorem witness_OutFrameRowsIssueTheirRequest :
    let s := machine (outDevice 3#2) none [] []
    s.dev.fault = [] ∧ s.dev.pending = none ∧ s.dev.config.variant = .outDriver ∧ s.dev.config.chipAddr = 3#2 ∧
      (0x1f#5).setWidth 8 ∈ s.dev.config.regset ∧ (Instr.frameOutWrite 3#2 0x1f#5 0x23#8 0x0c#5).wellFormed = true := by
  decide +kernel
theorem witness_InFrameRowsIssueTheirRequest :
    let s := machine inDevice none [] []
    s.dev.fault = [] ∧ s.dev.pending = none ∧ s.dev.config.variant = .inReceiver ∧
      (0x7f#7).setWidth 8 ∈ s.dev.config.regset ∧ (Instr.frameInWrite 0x7f#7 0xff#8 0x02#5).wellFormed = true := by
  decide +kernel
theorem witness_FramesOfOtherDevicesAreRefused :
    (machine inDevice none [] []).dev.config.variant = .inReceiver ∧
    (machine (outDevice 1#2) none [] []).dev.config.variant = .outDriver ∧
    (machine (outDevice 1#2) none [] []).dev.config.chipAddr ≠ 2#2 := by decide

end Sys2Proof.Tests
end

section
/-! SUPPORT. The statements on the session state (spec/10_state.md R31 to R34): what one instruction can do to the
state, said once, the agreement of two states that hold the same session, and a step as a turn followed by an
instruction. -/

namespace Sys2Proof.Machine

/-! ### What one instruction can do -/

/-- Every next state of an instruction, written out (R214): a recorded fault, a response delivered, a frame made
pending and delivered, or the pending frame exchanged. -/
theorem exec_next_state {i : Instr} {s t : State} (h : exec i s = .next t) :
    (∃ e, t = recordFault e s) ∨
    (∃ r, t = deliver r (advance s)) ∨
    (s.dev.pending = none ∧
      ∃ f, t = deliver { status := .ok, frame := some f } (advance (setPending (some f) s))) ∨
    (i = .exchange ∧ ∃ f, s.dev.pending = some f ∧
      t = deliver (exchangeResponse (transportAnswer s))
        (advance (setPending none (logBus f (transportAnswer s) (consumeAnswer s))))) := by
  obtain ⟨-, hfault | ⟨r, -, -, ht⟩ | ⟨reg, dir, data, henc⟩ | ⟨hi, hexch⟩⟩ := exec_next h
  · exact .inl hfault
  · exact .inr (.inl ⟨r, ht⟩)
  · obtain ⟨-, ⟨-, ht⟩ | ⟨hp, -, ht⟩ | ⟨-, -, ht⟩⟩ := issueEncode_next henc
    · exact .inl ⟨_, ht⟩
    · exact .inr (.inr (.inl ⟨hp, _, ht⟩))
    · exact .inr (.inl ⟨_, ht⟩)
  · obtain ⟨-, ⟨-, ht⟩ | hsent⟩ := issueExchange_next hexch
    · exact .inl ⟨_, ht⟩
    · exact .inr (.inr (.inr ⟨hi, hsent⟩))

/-- A faulted session takes no step of any instruction (R32). -/
theorem exec_of_faulted (i : Instr) {s : State} (h : s.dev.fault ≠ []) : exec i s = .fault .sessionFaulted := by
  cases i <;> exact ifRunning_of_faulted h

/-- A faulted session takes no step of the machine when its turn comes (R32, R209). -/
theorem step_of_faulted {s : State} (h : (takeTurn s).dev.fault ≠ []) : step s = .fault .sessionFaulted :=
  if_neg h

/-- An instruction records a fault, or keeps the fault list and moves to the next position (R33, R214). -/
theorem exec_faults_or_advances {i : Instr} {s t : State} (h : exec i s = .next t) :
    (∃ e, t = recordFault e s) ∨ (t.dev.fault = s.dev.fault ∧ t.dev.pc = s.dev.pc + 1) := by
  obtain hfault | ⟨r, rfl⟩ | ⟨-, f, rfl⟩ | ⟨-, f, -, rfl⟩ := exec_next_state h
  · exact .inl hfault
  all_goals exact .inr (by simp)

/-- No instruction changes its session's configuration or program, another session, or the turn list. -/
theorem exec_keeps_config_program_others_turns {i : Instr} {s t : State} (h : exec i s = .next t) :
    t.dev.config = s.dev.config ∧ t.dev.program = s.dev.program ∧ t.others = s.others ∧ t.turns = s.turns := by
  obtain ⟨e, rfl⟩ | ⟨r, rfl⟩ | ⟨-, f, rfl⟩ | ⟨-, f, -, rfl⟩ := exec_next_state h
  all_goals simp

/-- Only EXCHANGE uses the transport. -/
theorem exec_keeps_transport {i : Instr} {s t : State} (h : exec i s = .next t) (hi : i ≠ .exchange) :
    t.dev.answers = s.dev.answers ∧ t.draws = s.draws ∧ t.bus = s.bus := by
  obtain ⟨e, rfl⟩ | ⟨r, rfl⟩ | ⟨-, f, rfl⟩ | ⟨hexch, -⟩ := exec_next_state h
  case inr.inr.inr => exact absurd hexch hi
  all_goals simp

/-- A CRC5, DECODE or VERIFY step keeps `pending` (R214). -/
theorem issueChecked_keeps_pending {r : Response} {s t : State} (h : issueChecked r s = .next t) :
    t.dev.pending = s.dev.pending := by
  obtain ⟨-, ⟨-, rfl⟩ | ⟨-, rfl⟩⟩ := issueChecked_next h
  · simp
  · simp

/-- Settles O4: a next state keeps the fault list or is one recorded fault; a faulted session is stopped by every
meaning and by `step`. -/
theorem faultListOnlyGrowsAndStopsTheSession : Obligations.FaultListOnlyGrowsAndStopsTheSession := by
  unfold Obligations.FaultListOnlyGrowsAndStopsTheSession
  refine ⟨fun i s t h => ?_, fun i s h => exec_of_faulted i h, fun s h => step_of_faulted h⟩
  obtain ⟨e, rfl⟩ | ⟨hf, -⟩ := exec_faults_or_advances h
  · exact .inr ⟨e, recordFault_fault e s⟩
  · exact .inl hf

/-- Settles O5: a recorded fault lengthens the fault list and keeps the position; every other next state keeps the
list and advances. -/
theorem positionAdvancesByOneUnlessTheStepFaults : Obligations.PositionAdvancesByOneUnlessTheStepFaults := by
  unfold Obligations.PositionAdvancesByOneUnlessTheStepFaults
  refine ⟨rfl, fun i s t h => ?_, fun s => rfl⟩
  obtain ⟨e, rfl⟩ | hadv := exec_faults_or_advances h
  · exact .inr (by simp)
  · exact .inl hadv

/-- Settles O10: the fields by `exec_next_state`, and `pending` because each instruction named is a checked
operation. -/
theorem frameOfEveryInstruction : Obligations.FrameOfEveryInstruction := by
  unfold Obligations.FrameOfEveryInstruction
  intro i s t h
  obtain ⟨hcfg, hprog, hothers, hturns⟩ := exec_keeps_config_program_others_turns h
  refine ⟨hcfg, hprog, hothers, hturns, exec_keeps_transport h, ?_⟩
  rintro b b0 b1 b2 st2 c (rfl | rfl | rfl | rfl | rfl)
  all_goals exact issueChecked_keeps_pending h

/-- Settles O13, along the four kinds of next state. -/
theorem pendingIsSetByEncodeAndClearedByExchange : Obligations.PendingIsSetByEncodeAndClearedByExchange := by
  unfold Obligations.PendingIsSetByEncodeAndClearedByExchange
  intro i s t h
  obtain ⟨e, rfl⟩ | ⟨r, rfl⟩ | ⟨hp, f, rfl⟩ | ⟨hi, f, hp, rfl⟩ := exec_next_state h
  · exact .inl (recordFault_pending e s)
  · exact .inl (by simp)
  · exact .inr (.inl ⟨hp, f, by simp, by simp⟩)
  · exact .inr (.inr ⟨hi, by simp [hp], by simp⟩)

/-! ### Two states with the same session -/

/-- Where the first outcome is a next state, so is the second, with the same session and the given other sessions. -/
def StepsAlike (others : List Session) (o o' : Host.Outcome State Fault Refusal) : Prop :=
  ∀ t, o = .next t → ∃ t', o' = .next t' ∧ t'.dev = t.dev ∧ t'.others = others

section
variable {s s' : State} (hdev : s.dev = s'.dev)
include hdev

theorem ifRunning_stepsAlike {others : List Session} {o o' : Host.Outcome State Fault Refusal}
    (h : StepsAlike others o o') : StepsAlike others (ifRunning s o) (ifRunning s' o') := by
  intro t ht
  obtain ⟨hf, ho⟩ := ifRunning_next ht
  rw [ifRunning_of_running (hdev ▸ hf)]
  exact h t ho

theorem raiseFault_stepsAlike (e : SessionError) : StepsAlike s'.others (raiseFault e s) (raiseFault e s') := by
  rintro _ ⟨⟩
  exact ⟨_, rfl, by simp [recordFault, hdev], rfl⟩

theorem completeStep_stepsAlike (r : Response) : StepsAlike s'.others (completeStep r s) (completeStep r s') := by
  rintro _ ⟨⟩
  exact ⟨_, rfl, by simp [deliver, advance, hdev], rfl⟩

theorem issueChecked_stepsAlike (r : Response) : StepsAlike s'.others (issueChecked r s) (issueChecked r s') := by
  refine ifRunning_stepsAlike hdev ?_
  split
  · exact raiseFault_stepsAlike hdev _
  · exact completeStep_stepsAlike hdev r

theorem setPending_dev_congr (p : Option Frame) : (setPending p s).dev = (setPending p s').dev := by
  simp [setPending, hdev]

theorem issueEncode_stepsAlike (reg : Byte) (dir : Direction) (data : Byte) :
    StepsAlike s'.others (issueEncode reg dir data s) (issueEncode reg dir data s') := by
  refine ifRunning_stepsAlike hdev ?_
  rw [hdev]
  split
  · dsimp only
    split
    · exact completeStep_stepsAlike (setPending_dev_congr hdev _) _
    · exact completeStep_stepsAlike hdev _
  · exact raiseFault_stepsAlike hdev _

theorem issueFrame_stepsAlike (v : Variant) (chip : Option (BitVec 2)) (reg : Byte) (dir : Direction) (data : Byte) :
    StepsAlike s'.others (issueFrame v chip reg dir data s) (issueFrame v chip reg dir data s') := by
  refine ifRunning_stepsAlike hdev ?_
  rw [hdev]
  split
  · rintro _ ⟨⟩
  · split
    · rintro _ ⟨⟩
    · exact issueEncode_stepsAlike hdev reg dir data

/-- The transport's answer is read from the session's script and the draw counter (log 2). -/
theorem transportAnswer_congr (hdraws : s.draws = s'.draws) : transportAnswer s = transportAnswer s' := by
  simp only [transportAnswer, hdev, hdraws]

theorem consumeAnswer_dev_congr : (consumeAnswer s).dev = (consumeAnswer s').dev := by
  cases ha : s.dev.answers with
  | nil => rw [consumeAnswer_of_no_script ha, consumeAnswer_of_no_script (hdev ▸ ha)]; exact hdev
  | cons a rest => rw [consumeAnswer_of_script ha, consumeAnswer_of_script (hdev ▸ ha), hdev]

theorem issueExchange_stepsAlike (hdraws : s.draws = s'.draws) :
    StepsAlike s'.others (issueExchange s) (issueExchange s') := by
  refine ifRunning_stepsAlike hdev ?_
  rw [transportAnswer_congr hdev hdraws, hdev]
  cases s'.dev.pending with
  | none => exact raiseFault_stepsAlike hdev _
  | some f =>
    have hsent : (setPending none (logBus f (transportAnswer s') (consumeAnswer s))).dev =
        (setPending none (logBus f (transportAnswer s') (consumeAnswer s'))).dev :=
      setPending_dev_congr (consumeAnswer_dev_congr hdev) none
    rw [← consumeAnswer_others s']
    exact completeStep_stepsAlike hsent _

/-- An instruction is run alike in two states that agree on the session and the draw counter. -/
theorem exec_stepsAlike (hdraws : s.draws = s'.draws) (i : Instr) :
    StepsAlike s'.others (exec i s) (exec i s') := by
  cases i with
  | crc5 | decode | verify | check | frameResponse => exact issueChecked_stepsAlike hdev _
  | encode | read | write => exact issueEncode_stepsAlike hdev _ _ _
  | frameOutRead | frameOutWrite | frameInRead | frameInWrite => exact issueFrame_stepsAlike hdev _ _ _ _ _
  | exchange => exact issueExchange_stepsAlike hdev hdraws

end

/-- Settles O12: every shared operation reads the session and, for EXCHANGE, the draw counter. -/
theorem sessionsDoNotInfluenceEachOther : Obligations.SessionsDoNotInfluenceEachOther := by
  unfold Obligations.SessionsDoNotInfluenceEachOther
  intro i s s' t hdev hdraws h
  exact exec_stepsAlike hdev hdraws i t h

/-! ### A step as a turn and an instruction -/

/-- A running session's step is its decoded instruction, after the turn (R33, R214). -/
theorem step_of_decoded {s : State} {item : ProgramItem} {i : Instr} (hf : (takeTurn s).dev.fault = [])
    (hitem : fetchItem (takeTurn s) = some item)
    (hdec : decodeItem (takeTurn s).dev.config.variant item = .ok i) : step s = exec i (takeTurn s) := by
  simp [step, hf, hitem, hdec]

/-- The state with an item placed (log 3): no turns, no fault, the item at the position. -/
theorem withFetchWord_of_item {s : State} {nbits w : Nat} {item : ProgramItem} (h : tableItem nbits w = some item) :
    s.withFetchWord nbits w =
      { s with
        turns := []
        dev := { s.dev with fault := [], program := placeItem s.dev.program s.dev.pc item } } := by
  simp [State.withFetchWord, h]

section
variable {s : State} {nbits w : Nat} {item : ProgramItem} (h : tableItem nbits w = some item)
include h

theorem withFetchWord_turns : (s.withFetchWord nbits w).turns = [] := by rw [withFetchWord_of_item h]
theorem withFetchWord_fault : (s.withFetchWord nbits w).dev.fault = [] := by rw [withFetchWord_of_item h]
theorem withFetchWord_config : (s.withFetchWord nbits w).dev.config = s.dev.config := by rw [withFetchWord_of_item h]

/-- The placed item is the one fetched. -/
theorem fetchItem_withFetchWord : fetchItem (s.withFetchWord nbits w) = some item := by
  rw [withFetchWord_of_item h]
  exact placeItem_get s.dev.program s.dev.pc item

end

/-- Settles O7. -/
theorem stepRunsTheDecodedInstruction : Obligations.StepRunsTheDecodedInstruction := by
  unfold Obligations.StepRunsTheDecodedInstruction
  exact ⟨fun _ _ _ hf hitem hdec => step_of_decoded hf hitem hdec, fun _ h => takeTurn_of_no_turns h⟩

/-- Settles O8: the placed state takes no turn, its session is running, and the item it fetches is the placed one. -/
theorem placedWordIsTheNextInstruction : Obligations.PlacedWordIsTheNextInstruction := by
  unfold Obligations.PlacedWordIsTheNextInstruction
  intro s nbits w item i hitem hdec
  have hturn := takeTurn_of_no_turns (withFetchWord_turns (s := s) hitem)
  have hstep : step (s.withFetchWord nbits w) = exec i (takeTurn (s.withFetchWord nbits w)) :=
    step_of_decoded (item := item) (by rw [hturn, withFetchWord_fault hitem])
      (by rw [hturn, fetchItem_withFetchWord hitem]) (by rw [hturn, withFetchWord_config hitem, hdec])
  rw [hstep, hturn]

end Sys2Proof.Machine
end

section
/-! SUPPORT. The statements on memory and the transport (spec/20_memory.md R41, R44, R52): the bytes of a frame in its
24-bit value, the bits of a concatenation in wire order, and what an instruction puts on the bus. -/

namespace Sys2Proof.Machine

/-! ### The bytes of a frame's value (R41) -/

@[simp] theorem frameValue_byte0 (f : Frame) : (frameValue f).extractLsb' 16 8 = f.b0 := by
  have hrest : (frameValue f).extractLsb' 16 8 = (f.b0 ++ f.b1).extractLsb' 8 8 :=
    BitVec.extractLsb'_append_eq_of_le (by decide)
  rw [hrest, BitVec.extractLsb'_append_eq_left]

@[simp] theorem frameValue_byte1 (f : Frame) : (frameValue f).extractLsb' 8 8 = f.b1 := by
  have hrest : (frameValue f).extractLsb' 8 8 = (f.b0 ++ f.b1).extractLsb' 0 8 :=
    BitVec.extractLsb'_append_eq_of_le (by decide)
  rw [hrest, BitVec.extractLsb'_append_eq_right]

@[simp] theorem frameValue_byte2 (f : Frame) : (frameValue f).extractLsb' 0 8 = f.b2 :=
  BitVec.extractLsb'_append_eq_right

@[simp] theorem frameOfValue_frameValue (f : Frame) : frameOfValue (frameValue f) = f := by
  simp only [frameOfValue, frameValue_byte0, frameValue_byte1, frameValue_byte2]

@[simp] theorem frameValue_frameOfValue (v : BitVec 24) : frameValue (frameOfValue v) = v := by
  have hupper : v.extractLsb' 16 8 ++ v.extractLsb' 8 8 = v.extractLsb' 8 16 :=
    BitVec.extractLsb'_append_extractLsb'_eq_extractLsb' rfl
  have hall : v.extractLsb' 8 16 ++ v.extractLsb' 0 8 = v.extractLsb' 0 24 :=
    BitVec.extractLsb'_append_extractLsb'_eq_extractLsb' rfl
  calc frameValue (frameOfValue v)
      = v.extractLsb' 16 8 ++ v.extractLsb' 8 8 ++ v.extractLsb' 0 8 := rfl
    _ = v := by rw [hupper, hall, BitVec.extractLsb'_eq_self]

/-- Settles O25: each byte is read back from its place in the value, and a value is the bytes read from it. -/
theorem frameValueIsTheThreeBytesInOrder : Obligations.FrameValueIsTheThreeBytesInOrder := by
  unfold Obligations.FrameValueIsTheThreeBytesInOrder
  exact ⟨fun f => ⟨rfl, frameValue_byte0 f, frameValue_byte1 f, frameValue_byte2 f, frameOfValue_frameValue f⟩,
    frameValue_frameOfValue⟩

/-! ### The bits of a frame in wire order (R42, R44) -/

/-- The bits of a word of any width, MSB first; for a byte these are `byteBitsMsbFirst`. -/
def bitsMsbFirst {n : Nat} (x : BitVec n) : List Bool := (List.range n).map fun i => x.getLsbD (n - 1 - i)

theorem byteBitsMsbFirst_eq_bitsMsbFirst (b : Byte) : byteBitsMsbFirst b = bitsMsbFirst b := rfl

/-- A concatenation sends its high part first, then its low part. -/
theorem bitsMsbFirst_append {m n : Nat} (x : BitVec m) (y : BitVec n) :
    bitsMsbFirst (x ++ y) = bitsMsbFirst x ++ bitsMsbFirst y := by
  simp only [bitsMsbFirst, List.range_add, List.map_append, List.map_map]
  congr 1
  · refine List.map_congr_left fun i hi => ?_
    have him : i < m := List.mem_range.mp hi
    rw [BitVec.getLsbD_append, if_neg (by omega)]
    congr 1
    omega
  · refine List.map_congr_left fun i hi => ?_
    have hin : i < n := List.mem_range.mp hi
    rw [Function.comp_apply, BitVec.getLsbD_append, if_pos (by omega)]
    congr 1
    omega

/-- The wire order of a frame is that of its 24-bit value. -/
theorem wireBits_eq_bitsMsbFirst (f : Frame) : wireBits f = bitsMsbFirst (frameValue f) := by
  calc wireBits f
      = bitsMsbFirst f.b0 ++ (bitsMsbFirst f.b1 ++ (bitsMsbFirst f.b2 ++ [])) := rfl
    _ = bitsMsbFirst (f.b0 ++ f.b1 ++ f.b2) := by
      rw [bitsMsbFirst_append, bitsMsbFirst_append, List.append_nil, List.append_assoc]

/-- Settles O26: the three bytes' bits in turn are the bits of their concatenation, MSB first. -/
theorem framesGoOutMostSignificantBitFirst : Obligations.FramesGoOutMostSignificantBitFirst := by
  unfold Obligations.FramesGoOutMostSignificantBitFirst
  exact wireBits_eq_bitsMsbFirst

/-! ### The bus (R52, R245) -/

/-- Settles O14: of the four kinds of next state, only the exchange of the pending frame logs on the bus, and it logs
one `busBracket`. -/
theorem onlyExchangeUsesTheBusOneBracketAtATime : Obligations.OnlyExchangeUsesTheBusOneBracketAtATime := by
  unfold Obligations.OnlyExchangeUsesTheBusOneBracketAtATime
  intro i s t h
  obtain ⟨e, rfl⟩ | ⟨r, rfl⟩ | ⟨-, f, rfl⟩ | ⟨hi, f, hp, rfl⟩ := exec_next_state h
  · exact .inl (recordFault_bus e s)
  · exact .inl (by simp)
  · exact .inl (by simp)
  · exact .inr ⟨hi, f, transportAnswer s, hp, by simp [busBracket]⟩

end Sys2Proof.Machine
end

section
/-! SUPPORT. The statements on the encodings of instructions (spec/30_encoding.md R60 to R67, R73, R75): the fields of
each frame word, read and put back, the two directions of a command frame row as one row, and the requests by OP. -/

namespace Sys2Proof.Machine

/-! ### The direction bit (R69) -/

@[simp] theorem directionOfBit_directionBit (d : Direction) : directionOfBit (directionBit d) = d := by
  cases d <;> rfl

@[simp] theorem directionBit_directionOfBit : ∀ b : BitVec 1, directionBit (directionOfBit b) = b := by decide

theorem directionOfBit_inj {b b' : BitVec 1} : directionOfBit b = directionOfBit b' ↔ b = b' :=
  (Function.LeftInverse.injective directionBit_directionOfBit).eq_iff

/-! ### The fields of a frame word, read back (R63 to R67) -/

theorem outFrameWord_fields (a : BitVec 2) (r : BitVec 5) (d : Direction) (v : Byte) (c : Crc) :
    (outFrameWord a r d v c).extractLsb' 22 2 = a ∧ (outFrameWord a r d v c).extractLsb' 17 5 = r ∧
    (outFrameWord a r d v c).extractLsb' 16 1 = directionBit d ∧ (outFrameWord a r d v c).extractLsb' 8 8 = v ∧
    (outFrameWord a r d v c).extractLsb' 5 3 = 0b000#3 ∧ (outFrameWord a r d v c).extractLsb' 0 5 = c := by
  simp (disch := decide) only [outFrameWord, BitVec.extractLsb'_append_eq_of_le,
    BitVec.extractLsb'_append_eq_of_add_le, Nat.reduceSub, BitVec.extractLsb'_eq_self, and_self]

theorem inFrameWord_fields (d : Direction) (r : BitVec 7) (v : Byte) (c : Crc) :
    (inFrameWord d r v c).extractLsb' 23 1 = directionBit d ∧ (inFrameWord d r v c).extractLsb' 16 7 = r ∧
    (inFrameWord d r v c).extractLsb' 8 8 = v ∧ (inFrameWord d r v c).extractLsb' 5 3 = 0b000#3 ∧
    (inFrameWord d r v c).extractLsb' 0 5 = c := by
  simp (disch := decide) only [inFrameWord, BitVec.extractLsb'_append_eq_of_le,
    BitVec.extractLsb'_append_eq_of_add_le, Nat.reduceSub, BitVec.extractLsb'_eq_self, and_self]

theorem responseFrameWord_fields (s v : Byte) (t : BitVec 3) (c : Crc) :
    (responseFrameWord s v t c).extractLsb' 16 8 = s ∧ (responseFrameWord s v t c).extractLsb' 8 8 = v ∧
    (responseFrameWord s v t c).extractLsb' 5 3 = t ∧ (responseFrameWord s v t c).extractLsb' 0 5 = c := by
  simp (disch := decide) only [responseFrameWord, BitVec.extractLsb'_append_eq_of_le,
    BitVec.extractLsb'_append_eq_of_add_le, Nat.reduceSub, BitVec.extractLsb'_eq_self, and_self]

/-! ### A word, put together from its fields -/

theorem outFrameWord_of_fields {fv : BitVec 24} (h : fv.extractLsb' 5 3 = 0b000#3) :
    outFrameWord (fv.extractLsb' 22 2) (fv.extractLsb' 17 5) (directionOfBit (fv.extractLsb' 16 1))
      (fv.extractLsb' 8 8) (fv.extractLsb' 0 5) = fv := by
  rw [outFrameWord, directionBit_directionOfBit, ← h]
  simp only [BitVec.extractLsb'_append_extractLsb'_eq_extractLsb']
  exact BitVec.extractLsb'_eq_self

theorem inFrameWord_of_fields {fv : BitVec 24} (h : fv.extractLsb' 5 3 = 0b000#3) :
    inFrameWord (directionOfBit (fv.extractLsb' 23 1)) (fv.extractLsb' 16 7) (fv.extractLsb' 8 8)
      (fv.extractLsb' 0 5) = fv := by
  rw [inFrameWord, directionBit_directionOfBit, ← h]
  simp only [BitVec.extractLsb'_append_extractLsb'_eq_extractLsb']
  exact BitVec.extractLsb'_eq_self

theorem responseFrameWord_of_fields (fv : BitVec 24) :
    responseFrameWord (fv.extractLsb' 16 8) (fv.extractLsb' 8 8) (fv.extractLsb' 5 3) (fv.extractLsb' 0 5) = fv := by
  simp only [responseFrameWord, BitVec.extractLsb'_append_extractLsb'_eq_extractLsb']
  exact BitVec.extractLsb'_eq_self

/-! ### The command frame rows, both directions at once (R63, R64) -/

/-- The OUT command frame row of direction `d`. -/
def outFrameRow (a : BitVec 2) (r : BitVec 5) (d : Direction) (v : Byte) (c : Crc) : Instr :=
  match d with
  | .read => .frameOutRead a r v c
  | .write => .frameOutWrite a r v c

/-- The IN command frame row of direction `d`. -/
def inFrameRow (d : Direction) (r : BitVec 7) (v : Byte) (c : Crc) : Instr :=
  match d with
  | .read => .frameInRead r v c
  | .write => .frameInWrite r v c

section
variable (a : BitVec 2) (r : BitVec 5) (r' : BitVec 7) (d : Direction) (v : Byte) (c : Crc)

theorem encode_outFrameRow : encode (outFrameRow a r d v c) = .commandFrame (outFrameWord a r d v c) := by
  cases d <;> rfl

theorem encode_inFrameRow : encode (inFrameRow d r' v c) = .commandFrame (inFrameWord d r' v c) := by
  cases d <;> rfl

theorem layoutOf_outFrameRow : layoutOf (outFrameRow a r d v c) = some .outDriver := by
  cases d <;> rfl

theorem layoutOf_inFrameRow : layoutOf (inFrameRow d r' v c) = some .inReceiver := by
  cases d <;> rfl

theorem spelledRequest_outFrameRow :
    spelledRequest (outFrameRow a r d v c) = some (.encode (r.setWidth 8) d v) := by
  cases d <;> rfl

theorem spelledRequest_inFrameRow :
    spelledRequest (inFrameRow d r' v c) = some (.encode (r'.setWidth 8) d v) := by
  cases d <;> rfl

end

theorem decodeOutFrame_eq_row (fv : BitVec 24) :
    decodeOutFrame fv = outFrameRow (fv.extractLsb' 22 2) (fv.extractLsb' 17 5)
      (directionOfBit (fv.extractLsb' 16 1)) (fv.extractLsb' 8 8) (fv.extractLsb' 0 5) := by
  unfold decodeOutFrame
  cases directionOfBit (fv.extractLsb' 16 1) <;> rfl

theorem decodeInFrame_eq_row (fv : BitVec 24) :
    decodeInFrame fv = inFrameRow (directionOfBit (fv.extractLsb' 23 1)) (fv.extractLsb' 16 7)
      (fv.extractLsb' 8 8) (fv.extractLsb' 0 5) := by
  unfold decodeInFrame
  cases directionOfBit (fv.extractLsb' 23 1) <;> rfl

/-! ### What the decoder answers -/

/-- A command frame word with bits [7:5] = 000 is a row under either VARIANT (R66, R73). -/
theorem decodeCommandFrame_of_upper_zero {fv : BitVec 24} (h : fv.extractLsb' 5 3 = 0b000#3) :
    decodeCommandFrame .outDriver fv = .ok (decodeOutFrame fv) ∧
    decodeCommandFrame .inReceiver fv = .ok (decodeInFrame fv) :=
  ⟨if_pos h, if_pos h⟩

/-- Any other command frame word is rejected (R66; log 7). -/
theorem decodeCommandFrame_of_upper_ne {fv : BitVec 24} (h : fv.extractLsb' 5 3 ≠ 0b000#3) (v : Variant) :
    decodeCommandFrame v fv = .error .commandFrameUpperBits :=
  if_neg h

theorem decodeCommandFrame_outFrameWord (a : BitVec 2) (r : BitVec 5) (d : Direction) (v : Byte) (c : Crc) :
    decodeCommandFrame .outDriver (outFrameWord a r d v c) = .ok (outFrameRow a r d v c) := by
  obtain ⟨ha, hr, hd, hv, hupper, hc⟩ := outFrameWord_fields a r d v c
  rw [(decodeCommandFrame_of_upper_zero hupper).1, decodeOutFrame_eq_row, ha, hr, hd, hv, hc,
    directionOfBit_directionBit]

theorem decodeCommandFrame_inFrameWord (d : Direction) (r : BitVec 7) (v : Byte) (c : Crc) :
    decodeCommandFrame .inReceiver (inFrameWord d r v c) = .ok (inFrameRow d r v c) := by
  obtain ⟨hd, hr, hv, hupper, hc⟩ := inFrameWord_fields d r v c
  rw [(decodeCommandFrame_of_upper_zero hupper).2, decodeInFrame_eq_row, hd, hr, hv, hc,
    directionOfBit_directionBit]

theorem decodeResponseFrame_responseFrameWord (s v : Byte) (t : BitVec 3) (c : Crc) :
    decodeResponseFrame (responseFrameWord s v t c) = .frameResponse s v t c := by
  obtain ⟨hs, hv, ht, hc⟩ := responseFrameWord_fields s v t c
  rw [decodeResponseFrame, hs, hv, ht, hc]

/-- The row a word was read as encodes to the word, under either VARIANT. -/
theorem encode_of_decodeCommandFrame {v : Variant} {fv : BitVec 24} {i : Instr}
    (h : decodeCommandFrame v fv = .ok i) : encode i = .commandFrame fv := by
  by_cases hupper : fv.extractLsb' 5 3 = 0b000#3
  · obtain ⟨hout, hin⟩ := decodeCommandFrame_of_upper_zero hupper
    cases v with
    | outDriver =>
      obtain rfl : decodeOutFrame fv = i := Except.ok.inj (hout.symm.trans h)
      rw [decodeOutFrame_eq_row, encode_outFrameRow, outFrameWord_of_fields hupper]
    | inReceiver =>
      obtain rfl : decodeInFrame fv = i := Except.ok.inj (hin.symm.trans h)
      rw [decodeInFrame_eq_row, encode_inFrameRow, inFrameWord_of_fields hupper]
  · rw [decodeCommandFrame_of_upper_ne hupper] at h
    cases h

section
variable {r : Request}

theorem decodeRequest_of_op_00 (h : r.op = 0b00#2) : decodeRequest r = .crc5 r.b := by simp [decodeRequest, h]

theorem decodeRequest_of_op_01 (h : r.op = 0b01#2) :
    decodeRequest r = .encode r.reg (directionOfBit r.dir) r.data := by simp [decodeRequest, h]

theorem decodeRequest_of_op_10 (h : r.op = 0b10#2) : decodeRequest r = .decode r.b := by simp [decodeRequest, h]

theorem decodeRequest_of_op_11 (h : r.op = 0b11#2) : decodeRequest r = .verify r.b := by simp [decodeRequest, h]

end

/-- R61: all four values of `OP` are assigned. -/
theorem op_cases : ∀ op : BitVec 2, op = 0b00#2 ∨ op = 0b01#2 ∨ op = 0b10#2 ∨ op = 0b11#2 := by decide

theorem decodeItem_encodeRequest (v : Variant) (reg : Byte) (dir : Direction) (data : Byte) :
    decodeItem v (encodeRequest reg dir data) = .ok (.encode reg dir data) := by
  rw [encodeRequest, decodeItem, decodeRequest_of_op_01 rfl, directionOfBit_directionBit]

/-! ### The statements -/

/-- Settles O16: one case per instruction; a pseudo-operation has the item of its expansion, and a command frame row
is decoded under the VARIANT of its layout. -/
theorem decodeReadsBackEveryEncoding : Obligations.DecodeReadsBackEveryEncoding := by
  unfold Obligations.DecodeReadsBackEveryEncoding
  intro i v hlayout
  have own : ∀ u, layoutOf i = some u → v = u := fun u hu => by simpa [hu, eq_comm] using hlayout
  cases i with
  | crc5 b => exact congrArg _ (decodeRequest_of_op_00 rfl)
  | decode b => exact congrArg _ (decodeRequest_of_op_10 rfl)
  | verify b => exact congrArg _ (decodeRequest_of_op_11 rfl)
  | check b0 b1 b2 => exact congrArg _ (decodeRequest_of_op_11 rfl)
  | encode reg dir data => exact decodeItem_encodeRequest v reg dir data
  | read reg => exact decodeItem_encodeRequest v reg .read _
  | write reg data => exact decodeItem_encodeRequest v reg .write data
  | exchange => rfl
  | frameOutRead a r val c => rw [own _ rfl]; exact decodeCommandFrame_outFrameWord a r .read val c
  | frameOutWrite a r val c => rw [own _ rfl]; exact decodeCommandFrame_outFrameWord a r .write val c
  | frameInRead r val c => rw [own _ rfl]; exact decodeCommandFrame_inFrameWord .read r val c
  | frameInWrite r val c => rw [own _ rfl]; exact decodeCommandFrame_inFrameWord .write r val c
  | frameResponse s val t c => exact congrArg _ (decodeResponseFrame_responseFrameWord s val t c)

/-- Settles O17: the fields a word is decoded into put the word together again. -/
theorem encodeGivesBackEveryDecodedFrame : Obligations.EncodeGivesBackEveryDecodedFrame := by
  unfold Obligations.EncodeGivesBackEveryDecodedFrame
  intro v fv i
  refine ⟨encode_of_decodeCommandFrame, fun h => ?_⟩
  obtain rfl : decodeResponseFrame fv = i := Except.ok.inj h
  exact congrArg _ (responseFrameWord_of_fields fv)

/-- Settles O18. -/
theorem opSelectsTheOperation : Obligations.OpSelectsTheOperation := by
  unfold Obligations.OpSelectsTheOperation
  exact ⟨fun _ => decodeRequest_of_op_00, fun _ => decodeRequest_of_op_01, fun _ => decodeRequest_of_op_10,
    fun _ => decodeRequest_of_op_11, fun _ _ => rfl⟩

/-- Settles O19, by the four values of OP: a buffer operation reads the input only, ENCODE everything else. -/
theorem unusedRequestFieldsAreIgnored : Obligations.UnusedRequestFieldsAreIgnored := by
  unfold Obligations.UnusedRequestFieldsAreIgnored
  intro r r' hop
  constructor
  · intro hne hb
    obtain h | h | h | h := op_cases r.op
    · rw [decodeRequest_of_op_00 h, decodeRequest_of_op_00 (hop ▸ h), hb]
    · exact absurd h hne
    · rw [decodeRequest_of_op_10 h, decodeRequest_of_op_10 (hop ▸ h), hb]
    · rw [decodeRequest_of_op_11 h, decodeRequest_of_op_11 (hop ▸ h), hb]
  · intro h hreg hdir hdata
    rw [decodeRequest_of_op_01 h, decodeRequest_of_op_01 (hop ▸ h), hreg, hdir, hdata]

/-- The OUT and the IN register field and direction bit of one word agree only when byte 0 is 00: its bits [5:1] are
its bits [6:0] only when these are all 0, and then bit 0, which is bit 7, is 0 too. -/
theorem out_and_in_fields_agree_iff (fv : BitVec 24) :
    (fv.extractLsb' 17 5).setWidth 8 = (fv.extractLsb' 16 7).setWidth 8 ∧
      fv.extractLsb' 16 1 = fv.extractLsb' 23 1 ↔ fv.extractLsb' 16 8 = 0x00#8 := by
  simp only [← BitVec.toNat_inj, BitVec.toNat_setWidth, BitVec.extractLsb'_toNat, Nat.shiftRight_eq_div_pow,
    BitVec.toNat_ofNat]
  have hbyte : ∀ k, fv.toNat / 2 ^ (16 + k) = fv.toNat / 2 ^ 16 / 2 ^ k := fun k => by
    rw [Nat.div_div_eq_div_mul, pow_add]
  rw [hbyte 1, hbyte 7]
  generalize fv.toNat / 2 ^ 16 = m
  simp only [Nat.reducePow, Nat.zero_mod]
  have hreg : m / 2 % 32 % 256 = m % 128 % 256 ↔ m % 128 = 0 := by omega
  have hdir : m % 128 = 0 → (m % 2 = m / 128 % 2 ↔ m % 256 = 0) := by omega
  rw [hreg]
  omega

/-- Settles O20: the two rows have different layouts, and spell the same request exactly when the register fields and
the direction bits agree. -/
theorem sameBitsSpellDifferentRequests : Obligations.SameBitsSpellDifferentRequests := by
  unfold Obligations.SameBitsSpellDifferentRequests
  refine ⟨fun fv hupper => ?_, rfl, rfl, rfl, rfl, rfl, rfl, rfl, rfl⟩
  obtain ⟨hout, hin⟩ := decodeCommandFrame_of_upper_zero hupper
  rw [decodeOutFrame_eq_row] at hout
  rw [decodeInFrame_eq_row] at hin
  refine ⟨_, _, _, _, hout, hin, fun heq => ?_, spelledRequest_outFrameRow .., spelledRequest_inFrameRow .., ?_⟩
  · have hlayout := congrArg layoutOf heq
    rw [layoutOf_outFrameRow, layoutOf_inFrameRow] at hlayout
    cases hlayout
  · rw [← out_and_in_fields_agree_iff, Instr.encode.injEq, directionOfBit_inj]
    simp

/-- Settles O21. -/
theorem malformedCommandFramesAreRefused : Obligations.MalformedCommandFramesAreRefused := by
  unfold Obligations.MalformedCommandFramesAreRefused
  intro s fv hf hitem hupper
  have hdec : decodeItem (takeTurn s).dev.config.variant (.commandFrame fv) = .error .commandFrameUpperBits :=
    decodeCommandFrame_of_upper_ne hupper _
  exact ⟨hdec, by simp [step, hf, hitem, hdec]⟩

/-- Settles O22. -/
theorem knownWordsDecode : Obligations.KnownWordsDecode := by
  unfold Obligations.KnownWordsDecode
  exact ⟨rfl, rfl, rfl, rfl, rfl⟩

/-- Settles O23: an item and a meaning of a pseudo-operation are written as those of its expansion. -/
theorem pseudoOperationsAreTheirExpansions : Obligations.PseudoOperationsAreTheirExpansions := by
  unfold Obligations.PseudoOperationsAreTheirExpansions
  exact ⟨fun _ => ⟨rfl, fun _ => rfl⟩, fun _ _ => ⟨rfl, fun _ => rfl⟩, fun _ _ _ => ⟨rfl, fun _ => rfl⟩⟩

/-! ### Assembler lines (R74) -/

/-- The bytes written as operands are the bytes read from them, any count. -/
theorem operandBytes_map_byte (b : List Byte) : operandBytes (b.map .byte) = some b := by
  induction b with
  | nil => rfl
  | cons x xs ih => simp [operandBytes, ih]

/-- Settles O24: the line of each instruction is assembled by its mnemonic; the lines of CRC5, DECODE and VERIFY have
any number of byte operands. -/
theorem assemblerReadsBackItsLines : Obligations.AssemblerReadsBackItsLines := by
  unfold Obligations.AssemblerReadsBackItsLines
  intro i l h
  cases i with
  | crc5 b | decode b | verify b =>
    obtain rfl := Option.some.inj h
    simp [assembleLine, operandBytes_map_byte]
  | encode | exchange | read | write | check =>
    obtain rfl := Option.some.inj h
    rfl
  | frameOutRead | frameOutWrite | frameInRead | frameInWrite | frameResponse => cases h

end Sys2Proof.Machine
end

section
/-! SUPPORT. The statements on what the operations answer (spec/30_encoding.md R62, R70): an input of 3 bytes is a frame
and any other is refused, a register index is accepted or refused; one equation per operation and case. -/

namespace Sys2Proof.Machine

/-! ### CRC5, DECODE and VERIFY, by the input's length (R46) -/

/-- R46: an input is the bytes of a frame, or it does not have 3 bytes. -/
theorem eq_frameBytes_or_length_ne (b : List Byte) : (∃ f, b = frameBytes f) ∨ b.length ≠ 3 :=
  match b with
  | [] | [_] | [_, _] | _ :: _ :: _ :: _ :: _ => .inr (by simp)
  | [b0, b1, b2] => .inl ⟨⟨b0, b1, b2⟩, rfl⟩

@[simp] theorem length_frameBytes (f : Frame) : (frameBytes f).length = 3 := rfl

theorem frameOfBytes_of_length_ne {b : List Byte} (h : b.length ≠ 3) : frameOfBytes b = none :=
  match b with
  | [] | [_] | [_, _] | _ :: _ :: _ :: _ :: _ => rfl
  | [_, _, _] => absurd rfl h

theorem coreCrc5_frameBytes (f : Frame) :
    coreCrc5 (frameBytes f) = { status := .ok, crc := some (crcOfFrame f) } := rfl

theorem coreDecode_frameBytes (f : Frame) :
    coreDecode (frameBytes f) =
      { status := .ok, rdata := some (responseData f), st0 := some (responseSt0 f), st2 := some (responseSt2 f),
        rxcrc := some (responseCrc f) } := rfl

/-- The status of a VERIFY of 3 bytes (R142, R204). -/
def verifyStatus (f : Frame) : Status := if crcOfFrame f = responseCrc f then .ok else .checksumMismatch

theorem verifyStatus_cases (f : Frame) : verifyStatus f = .ok ∨ verifyStatus f = .checksumMismatch :=
  ite_eq_or_eq _ _ _

theorem coreVerify_frameBytes (f : Frame) :
    coreVerify (frameBytes f) =
      { status := verifyStatus f, crc := some (crcOfFrame f), rdata := some (responseData f),
        st0 := some (responseSt0 f), st2 := some (responseSt2 f), rxcrc := some (responseCrc f) } := rfl

section
variable {b : List Byte} (h : b.length ≠ 3)
include h

theorem coreCrc5_of_length_ne : coreCrc5 b = { status := .invalidInputLength } := by
  rw [coreCrc5, frameOfBytes_of_length_ne h]

theorem coreDecode_of_length_ne : coreDecode b = { status := .invalidInputLength } := by
  rw [coreDecode, frameOfBytes_of_length_ne h]

theorem coreVerify_of_length_ne : coreVerify b = { status := .invalidInputLength } := by
  rw [coreVerify, frameOfBytes_of_length_ne h]

end

/-! ### ENCODE, by the register index (R131) -/

section
variable {cfg : DeviceConfig} {reg : Byte}

theorem registerAccepted_iff :
    registerAccepted cfg reg = true ↔ reg.toNat < registerLimit cfg.variant ∧ reg ∈ cfg.regset := by
  simp [registerAccepted]

theorem coreEncode_of_accepted (h : registerAccepted cfg reg = true) (dir : Direction) (data : Byte) :
    coreEncode cfg reg dir data = { status := .ok, frame := some (buildFrame cfg reg dir data) } :=
  if_pos h

theorem coreEncode_of_refused (h : registerAccepted cfg reg = false) (dir : Direction) (data : Byte) :
    coreEncode cfg reg dir data = { status := .invalidRegister } :=
  if_neg (by simp [h])

end

/-- R131: the register field has 5 bits under OUT and 7 under IN. -/
theorem registerLimit_eq_ite (v : Variant) : registerLimit v = if v = .outDriver then 32 else 128 := by
  cases v <;> rfl

/-- Settles O52, by the input's length and the register index. -/
theorem responsesHaveExactlyTheirFields : Obligations.ResponsesHaveExactlyTheirFields := by
  unfold Obligations.ResponsesHaveExactlyTheirFields
  refine ⟨fun b => ?_, fun cfg reg dir data => ?_, fun b => ?_, fun b => ?_⟩
  · obtain ⟨f, rfl⟩ | hlen := eq_frameBytes_or_length_ne b
    · simp [coreCrc5_frameBytes]
    · simp [coreCrc5_of_length_ne hlen]
  · cases hreg : registerAccepted cfg reg
    · simp [coreEncode_of_refused hreg]
    · simp [coreEncode_of_accepted hreg]
  · obtain ⟨f, rfl⟩ | hlen := eq_frameBytes_or_length_ne b
    · simp [coreDecode_frameBytes]
    · simp [coreDecode_of_length_ne hlen]
  · obtain ⟨f, rfl⟩ | hlen := eq_frameBytes_or_length_ne b
    · simp [coreVerify_frameBytes, verifyStatus_cases f]
    · simp [coreVerify_of_length_ne hlen]

/-- Settles O53, by the register index and the input's length. -/
theorem illegalRequestsAreExactlyTheseAndRaise : Obligations.IllegalRequestsAreExactlyTheseAndRaise := by
  unfold Obligations.IllegalRequestsAreExactlyTheseAndRaise
  refine fun cfg => ⟨fun reg dir data => ?_, fun b => ?_⟩
  · rw [← registerLimit_eq_ite, ← registerAccepted_iff]
    cases hreg : registerAccepted cfg reg
    · simp [coreEncode_of_refused hreg, Instr.legal, hreg]
    · simp [coreEncode_of_accepted hreg, Instr.legal, hreg]
  · obtain ⟨f, rfl⟩ | hlen := eq_frameBytes_or_length_ne b
    · obtain hok | hmismatch := verifyStatus_cases f
      · simp [coreCrc5_frameBytes, coreDecode_frameBytes, coreVerify_frameBytes, hok]
      · simp [coreCrc5_frameBytes, coreDecode_frameBytes, coreVerify_frameBytes, hmismatch]
    · simp [coreCrc5_of_length_ne hlen, coreDecode_of_length_ne hlen, coreVerify_of_length_ne hlen, hlen]

end Sys2Proof.Machine
end

section
/-! SUPPORT. The statements on command frames and their rows (spec/30_encoding.md R63 to R66, R73; log 5, log 6): the
frame that ENCODE builds is a command frame word with its own checksum, and a row is the ENCODE of its fields. -/

namespace Sys2Proof.Machine

/-! ### The frame ENCODE builds, as a word (R63 to R66, R132 to R136) -/

/-- R132, R63: the OUT control byte is the fields A, R and d in turn. -/
theorem outControlByte_eq_append (chip : BitVec 2) (reg : Byte) (dir : Direction) :
    outControlByte chip reg dir = chip ++ reg.extractLsb' 0 5 ++ directionBit dir := by
  refine BitVec.eq_of_getLsbD_eq fun i hi => ?_
  simp only [outControlByte, BitVec.getLsbD_append]
  interval_cases i <;> simp

/-- R133, R64: the IN control byte is the fields d and R in turn. -/
theorem inControlByte_eq_append (reg : Byte) (dir : Direction) :
    inControlByte reg dir = directionBit dir ++ reg.extractLsb' 0 7 := by
  refine BitVec.eq_of_getLsbD_eq fun i hi => ?_
  simp only [inControlByte, BitVec.getLsbD_append]
  interval_cases i <;> simp

/-- The value of a frame with bits [7:5] = 000 (R66). -/
theorem frameValue_upper_zero (b0 b1 : Byte) (c : Crc) :
    frameValue ⟨b0, b1, 0b000#3 ++ c⟩ = b0 ++ b1 ++ 0b000#3 ++ c :=
  (BitVec.append_assoc (x₁ := b0 ++ b1) (x₂ := 0b000#3) (x₃ := c)).symm

theorem outFrameWord_eq_frameValue (a : BitVec 2) (r : BitVec 5) (d : Direction) (v : Byte) (c : Crc) :
    outFrameWord a r d v c = frameValue ⟨a ++ r ++ directionBit d, v, 0b000#3 ++ c⟩ :=
  (frameValue_upper_zero _ v c).symm

theorem inFrameWord_eq_frameValue (d : Direction) (r : BitVec 7) (v : Byte) (c : Crc) :
    inFrameWord d r v c = frameValue ⟨directionBit d ++ r, v, 0b000#3 ++ c⟩ :=
  (frameValue_upper_zero _ v c).symm

/-- R112: the checksum in byte 2 bits [4:0] is not part of what is checked. -/
theorem crcOfFrame_upper_zero (b0 b1 : Byte) (c : Crc) :
    crcOfFrame ⟨b0, b1, 0b000#3 ++ c⟩ = crcOfFrame ⟨b0, b1, 0x00#8⟩ := by
  rw [crcOfFrame, crcPayload_sealed, crcOfFrame]

/-- R135, R136: a sealed frame carries the checksum of itself. -/
theorem sealFrame_eq (b0 b1 : Byte) : sealFrame b0 b1 = ⟨b0, b1, 0b000#3 ++ crcOfFrame (sealFrame b0 b1)⟩ := by
  rw [sealFrame, crcOfFrame_upper_zero]

/-- A frame with bits [7:5] = 000 that carries its own checksum is the sealed one. -/
theorem sealFrame_of_checksum {b0 b1 : Byte} {c : Crc} (h : c = crcOfFrame ⟨b0, b1, 0b000#3 ++ c⟩) :
    sealFrame b0 b1 = ⟨b0, b1, 0b000#3 ++ c⟩ := by
  rw [crcOfFrame_upper_zero] at h
  rw [sealFrame, ← h]

section
variable {cfg : DeviceConfig}

theorem buildFrame_of_out (h : cfg.variant = .outDriver) (reg : Byte) (dir : Direction) (data : Byte) :
    buildFrame cfg reg dir data = sealFrame (cfg.chipAddr ++ reg.extractLsb' 0 5 ++ directionBit dir) data := by
  simp only [buildFrame, controlByte, h, outControlByte_eq_append]

theorem buildFrame_of_in (h : cfg.variant = .inReceiver) (reg : Byte) (dir : Direction) (data : Byte) :
    buildFrame cfg reg dir data = sealFrame (directionBit dir ++ reg.extractLsb' 0 7) data := by
  simp only [buildFrame, controlByte, h, inControlByte_eq_append]

/-- R63, R65, R66: the frame built under OUT is an OUT command frame word with its own checksum. -/
theorem frameValue_buildFrame_of_out (h : cfg.variant = .outDriver) (reg : Byte) (dir : Direction) (data : Byte) :
    frameValue (buildFrame cfg reg dir data) = outFrameWord cfg.chipAddr (reg.extractLsb' 0 5) dir data
      (crcOfFrame (buildFrame cfg reg dir data)) := by
  rw [outFrameWord_eq_frameValue, buildFrame_of_out h, ← sealFrame_eq]

/-- R64, R65, R66: the frame built under IN is an IN command frame word with its own checksum. -/
theorem frameValue_buildFrame_of_in (h : cfg.variant = .inReceiver) (reg : Byte) (dir : Direction) (data : Byte) :
    frameValue (buildFrame cfg reg dir data) = inFrameWord dir (reg.extractLsb' 0 7) data
      (crcOfFrame (buildFrame cfg reg dir data)) := by
  rw [inFrameWord_eq_frameValue, buildFrame_of_in h, ← sealFrame_eq]

/-- An OK of ENCODE returns the frame it built. -/
theorem frame_eq_buildFrame {reg : Byte} {dir : Direction} {data : Byte} {f : Frame}
    (h : (coreEncode cfg reg dir data).frame = some f) : f = buildFrame cfg reg dir data := by
  cases hreg : registerAccepted cfg reg
  · simp [coreEncode_of_refused hreg] at h
  · simpa [coreEncode_of_accepted hreg, eq_comm] using h

end

theorem directionBit_eq_ite (dir : Direction) : directionBit dir = if dir = .write then 1#1 else 0#1 := by
  cases dir <;> rfl

/-- Settles O36: the built frame is its variant's command frame word, with its own checksum as the field C. -/
theorem commandFrameBitLayouts : Obligations.CommandFrameBitLayouts := by
  unfold Obligations.CommandFrameBitLayouts
  intro cfg reg dir data f h
  obtain rfl := frame_eq_buildFrame (congrArg Response.frame h)
  exact ⟨directionBit dir, _, directionBit_eq_ite dir, coreCrc5_frameBytes _,
    fun hout => frameValue_buildFrame_of_out hout reg dir data,
    fun hin => frameValue_buildFrame_of_in hin reg dir data⟩

/-! ### A row of this device (log 5) and of another (log 6) -/

/-- An ENCODE step with nothing pending and an accepted register makes its frame pending and delivers it (R214). -/
theorem issueEncode_of_accepted {s : State} {reg : Byte} (hf : s.dev.fault = []) (hp : s.dev.pending = none)
    (hreg : registerAccepted s.dev.config reg = true) (dir : Direction) (data : Byte) :
    issueEncode reg dir data s = .next { s with dev := { s.dev with
      pc := s.dev.pc + 1
      pending := some (buildFrame s.dev.config reg dir data)
      delivered := s.dev.delivered ++
        [{ status := .ok, frame := some (buildFrame s.dev.config reg dir data) }] } } := by
  rw [issueEncode, ifRunning_of_running hf, if_pos hp, coreEncode_of_accepted hreg]
  rfl

section
variable {s : State} {v : Variant} {chip : Option (BitVec 2)} {reg data : Byte} {dir : Direction}

/-- On a device of its layout and chip address a row is its ENCODE, in a faulted session too. -/
theorem issueFrame_of_own (hv : s.dev.config.variant = v) (hchip : chip = none ∨ chip = some s.dev.config.chipAddr) :
    issueFrame v chip reg dir data s = issueEncode reg dir data s := by
  by_cases hf : s.dev.fault = []
  · rw [issueFrame, ifRunning_of_running hf, if_neg (not_not_intro hv), if_neg (by tauto)]
  · rw [issueFrame, issueEncode, ifRunning_of_faulted hf, ifRunning_of_faulted hf]

theorem issueFrame_of_other_variant (hf : s.dev.fault = []) (hv : s.dev.config.variant ≠ v) :
    issueFrame v chip reg dir data s = .refused .frameOfOtherVariant := by
  rw [issueFrame, ifRunning_of_running hf, if_pos hv]

theorem issueFrame_of_other_chip (hf : s.dev.fault = []) (hv : s.dev.config.variant = v) {a : BitVec 2}
    (ha : s.dev.config.chipAddr ≠ a) :
    issueFrame v (some a) reg dir data s = .refused .frameOfOtherChip := by
  rw [issueFrame, ifRunning_of_running hf, if_neg (not_not_intro hv), if_pos]
  exact ⟨by simp, by simpa using ha.symm⟩

end

/-! ### The rows, both directions at once -/

section
variable (a : BitVec 2) (r : BitVec 5) (r' : BitVec 7) (d : Direction) (v : Byte) (c : Crc) (s : State)

theorem exec_outFrameRow :
    exec (outFrameRow a r d v c) s = issueFrame .outDriver (some a) (r.setWidth 8) d v s := by
  cases d <;> rfl

theorem exec_inFrameRow : exec (inFrameRow d r' v c) s = issueFrame .inReceiver none (r'.setWidth 8) d v s := by
  cases d <;> rfl

theorem wellFormed_outFrameRow :
    (outFrameRow a r d v c).wellFormed = true ↔ c = crcOfFrame (frameOfValue (outFrameWord a r d v c)) := by
  cases d <;> exact beq_iff_eq

theorem wellFormed_inFrameRow :
    (inFrameRow d r' v c).wellFormed = true ↔ c = crcOfFrame (frameOfValue (inFrameWord d r' v c)) := by
  cases d <;> exact beq_iff_eq

end

/-- A 5-bit register field fits the OUT limit. -/
theorem registerAccepted_of_outField {cfg : DeviceConfig} {r : BitVec 5} (hv : cfg.variant = .outDriver)
    (hr : r.setWidth 8 ∈ cfg.regset) : registerAccepted cfg (r.setWidth 8) = true := by
  rw [registerAccepted_iff, hv, BitVec.toNat_setWidth_of_le (by decide)]
  exact ⟨r.isLt, hr⟩

/-- A 7-bit register field fits the IN limit. -/
theorem registerAccepted_of_inField {cfg : DeviceConfig} {r : BitVec 7} (hv : cfg.variant = .inReceiver)
    (hr : r.setWidth 8 ∈ cfg.regset) : registerAccepted cfg (r.setWidth 8) = true := by
  rw [registerAccepted_iff, hv, BitVec.toNat_setWidth_of_le (by decide)]
  exact ⟨r.isLt, hr⟩

/-- A well-formed OUT row is the very frame that its ENCODE builds (R136). -/
theorem frameValue_buildFrame_of_outFrameRow {cfg : DeviceConfig} (hv : cfg.variant = .outDriver) {r : BitVec 5}
    {d : Direction} {v : Byte} {c : Crc} (hwf : (outFrameRow cfg.chipAddr r d v c).wellFormed = true) :
    frameValue (buildFrame cfg (r.setWidth 8) d v) = outFrameWord cfg.chipAddr r d v c := by
  have hr : (r.setWidth 8).extractLsb' 0 5 = r := by
    rw [BitVec.extractLsb'_setWidth_of_le (by decide), BitVec.extractLsb'_eq_self]
  rw [wellFormed_outFrameRow, outFrameWord_eq_frameValue, frameOfValue_frameValue] at hwf
  rw [buildFrame_of_out hv, hr, sealFrame_of_checksum hwf, outFrameWord_eq_frameValue]

/-- A well-formed IN row is the very frame that its ENCODE builds (R136). -/
theorem frameValue_buildFrame_of_inFrameRow {cfg : DeviceConfig} (hv : cfg.variant = .inReceiver) {r : BitVec 7}
    {d : Direction} {v : Byte} {c : Crc} (hwf : (inFrameRow d r v c).wellFormed = true) :
    frameValue (buildFrame cfg (r.setWidth 8) d v) = inFrameWord d r v c := by
  have hr : (r.setWidth 8).extractLsb' 0 7 = r := by
    rw [BitVec.extractLsb'_setWidth_of_le (by decide), BitVec.extractLsb'_eq_self]
  rw [wellFormed_inFrameRow, inFrameWord_eq_frameValue, frameOfValue_frameValue] at hwf
  rw [buildFrame_of_in hv, hr, sealFrame_of_checksum hwf, inFrameWord_eq_frameValue]

/-- Settles O56: the row is its ENCODE, which completes; its register field fits. -/
theorem outFrameRowsIssueTheirRequest : Obligations.OutFrameRowsIssueTheirRequest := by
  unfold Obligations.OutFrameRowsIssueTheirRequest
  rintro s i d a r v c hi hf hp hv rfl hr
  have hrow : i = outFrameRow s.dev.config.chipAddr r d v c := by
    obtain ⟨rfl, rfl⟩ | ⟨rfl, rfl⟩ := hi <;> rfl
  have hreg := registerAccepted_of_outField hv hr
  refine ⟨buildFrame s.dev.config (r.setWidth 8) d v, ?_, coreEncode_of_accepted hreg d v, fun hwf => ?_⟩
  · rw [hrow, exec_outFrameRow, issueFrame_of_own hv (.inr rfl), issueEncode_of_accepted hf hp hreg]
  · exact frameValue_buildFrame_of_outFrameRow hv (hrow ▸ hwf)

/-- Settles O57, as O56 without a chip address. -/
theorem inFrameRowsIssueTheirRequest : Obligations.InFrameRowsIssueTheirRequest := by
  unfold Obligations.InFrameRowsIssueTheirRequest
  intro s i d r v c hi hf hp hv hr
  have hrow : i = inFrameRow d r v c := by
    obtain ⟨rfl, rfl⟩ | ⟨rfl, rfl⟩ := hi <;> rfl
  have hreg := registerAccepted_of_inField hv hr
  refine ⟨buildFrame s.dev.config (r.setWidth 8) d v, ?_, coreEncode_of_accepted hreg d v, fun hwf => ?_⟩
  · rw [hrow, exec_inFrameRow, issueFrame_of_own hv (.inl rfl), issueEncode_of_accepted hf hp hreg]
  · exact frameValue_buildFrame_of_inFrameRow hv (hrow ▸ hwf)

/-- Settles O58. -/
theorem frameRowsFailAsTheirEncodeDoes : Obligations.FrameRowsFailAsTheirEncodeDoes := by
  unfold Obligations.FrameRowsFailAsTheirEncodeDoes
  intro s a r r' v c
  refine ⟨fun hv ha => ?_, fun hv => ?_⟩
  · exact ⟨issueFrame_of_own hv (.inr (congrArg some ha.symm)), issueFrame_of_own hv (.inr (congrArg some ha.symm))⟩
  · exact ⟨issueFrame_of_own hv (.inl rfl), issueFrame_of_own hv (.inl rfl)⟩

/-- Settles O59. -/
theorem framesOfOtherDevicesAreRefused : Obligations.FramesOfOtherDevicesAreRefused := by
  unfold Obligations.FramesOfOtherDevicesAreRefused
  intro s a r r' v c hf
  refine ⟨fun hv => ?_, fun hv => ?_, fun hv ha => ?_⟩
  · have hother : s.dev.config.variant ≠ .outDriver := by simp [hv]
    exact ⟨issueFrame_of_other_variant hf hother, issueFrame_of_other_variant hf hother⟩
  · have hother : s.dev.config.variant ≠ .inReceiver := by simp [hv]
    exact ⟨issueFrame_of_other_variant hf hother, issueFrame_of_other_variant hf hother⟩
  · exact ⟨issueFrame_of_other_chip hf hv ha, issueFrame_of_other_chip hf hv ha⟩

end Sys2Proof.Machine
end

section
/-! SUPPORT. The statements on CRC5 (spec/40_crc5.md R100 to R112). The 19 steps are the long division of the working
value by g(x) over GF(2) (R109): the bits not yet divided lose a multiple of g at each step, and the checksum is
linear in the working value, so it vanishes on the multiples of g and only there. -/

namespace Sys2Proof.Machine

/-! ### The engine's result and the CRC5 operation (R100 to R107, R112, R214) -/

/-- The checksum part of the accumulator after all 19 steps (R106), of any 24-bit working value. -/
def crcRemainder (w : BitVec 24) : Crc := (crcAcc w 19).extractLsb' 0 5

theorem crcOfPayload_eq_crcRemainder (p : BitVec 19) : crcOfPayload p = crcRemainder (workingValue p) := rfl

/-- R29: a step leaves `ACC[5]` clear. -/
theorem crcAcc_succ_clears_flag (w : BitVec 24) (k : Nat) : feedbackFlag (crcAcc w (k + 1)) = false :=
  feedbackRule_clears_flag _

theorem crcRemainder_xor (w w' : BitVec 24) : crcRemainder (w ^^^ w') = crcRemainder w ^^^ crcRemainder w' := by
  rw [crcRemainder, crcAcc_xor, BitVec.extractLsb'_xor, ← crcRemainder, ← crcRemainder]

/-- R103, R104: every step forms its window from the accumulator before it and applies the feedback rule. -/
theorem exists_window_of_step (w : BitVec 24) {k : Nat} (hk : 1 ≤ k) : ∃ win : BitVec 6,
    win = (if k = 1 then crcAcc w 0 else (crcAcc w (k - 1)).extractLsb' 0 5 ++ w.extractLsb' (19 - k) 1) ∧
    crcAcc w k = if win.getLsbD 5 = true then win ^^^ 0b110101#6 else win := by
  obtain ⟨n, rfl⟩ := Nat.exists_eq_add_of_le' hk
  refine ⟨crcWindow w (crcAcc w n) (n + 1), ?_, rfl⟩
  cases n <;> rfl

/-- Settles O28: the engine, run on the four inputs. -/
theorem sourceVectorsHold : Obligations.SourceVectorsHold := by
  unfold Obligations.SourceVectorsHold
  decide +kernel

/-- Settles O27: the accumulator of the engine is the sequence of the rules. -/
theorem crc5IsTheNineteenStepAlgorithm : Obligations.Crc5IsTheNineteenStepAlgorithm := by
  unfold Obligations.Crc5IsTheNineteenStepAlgorithm
  refine ⟨fun _ => coreCrc5_of_length_ne, fun b0 b1 b2 => ?_, by decide +kernel, by decide +kernel,
    sourceVectorsHold.1, fun _ => decodeRequest_of_op_00⟩
  exact ⟨_, crcAcc (workingValue (crcPayload ⟨b0, b1, b2⟩)), rfl, rfl, fun k hk _ => exists_window_of_step _ hk,
    crcAcc_succ_clears_flag _ 18, rfl⟩

/-- Settles O29: the payload reads byte 2 in its bits [7:5] only. -/
theorem crc5IgnoresTheChecksumField : Obligations.Crc5IgnoresTheChecksumField := by
  unfold Obligations.Crc5IgnoresTheChecksumField
  intro b0 b1 b2 b2' h
  have hpayload : crcPayload ⟨b0, b1, b2⟩ = crcPayload ⟨b0, b1, b2'⟩ := by simp only [crcPayload, h]
  have hcrc : crcOfFrame ⟨b0, b1, b2⟩ = crcOfFrame ⟨b0, b1, b2'⟩ := congrArg crcOfPayload hpayload
  exact ⟨congrArg workingValue hpayload,
    (coreCrc5_frameBytes ⟨b0, b1, b2⟩).trans (hcrc ▸ coreCrc5_frameBytes ⟨b0, b1, b2'⟩).symm⟩

/-- Settles O34: the input is a frame, so the step completes. -/
theorem crc5StepCompletes : Obligations.Crc5StepCompletes := by
  unfold Obligations.Crc5StepCompletes
  intro s b0 b1 b2 hf
  change issueChecked (coreCrc5 (frameBytes ⟨b0, b1, b2⟩)) s = _
  rw [coreCrc5_frameBytes, issueChecked, ifRunning_of_running hf]
  rfl

/-! ### Polynomials over GF(2) as words -/

/-- A term added to both summands is cancelled. -/
theorem xor_xor_xor_cancel {n : Nat} (x y z : BitVec n) : (x ^^^ z) ^^^ (y ^^^ z) = x ^^^ y := by
  rw [BitVec.xor_comm y z, BitVec.xor_assoc, ← BitVec.xor_assoc z z, BitVec.xor_self, BitVec.zero_xor]

theorem extractLsb'_one_eq_ite {n : Nat} (x : BitVec n) (k : Nat) :
    x.extractLsb' k 1 = if x.getLsbD k then 1#1 else 0#1 := by
  refine BitVec.eq_of_getLsbD_eq fun i hi => ?_
  obtain rfl : i = 0 := by omega
  cases h : x.getLsbD k <;> simp [h]

/-- The low `k + 1` bits are the low `k` bits and bit `k`. -/
theorem setWidth_succ_eq_xor {n : Nat} (x : BitVec n) (k : Nat) :
    (x.setWidth (k + 1)).setWidth n = (x.setWidth k).setWidth n ^^^ (if x.getLsbD k then 1#n <<< k else 0#n) := by
  refine BitVec.eq_of_getLsbD_eq fun i hi => ?_
  obtain hlt | rfl | hgt := lt_trichotomy i k
  · cases x.getLsbD k <;> simp [hi, hlt, Nat.lt_succ_of_lt hlt]
  · cases hx : x[i] <;> simp [hi, hx]
  · have hne : i - k ≠ 0 := by omega
    cases x.getLsbD k <;> simp [hi, hgt.not_gt, hgt.not_ge, hne]

/-- A word is a sum of powers of x. -/
theorem xor_induction {n : Nat} {P : BitVec n → Prop} (zero : P 0#n) (power : ∀ i < n, P (1#n <<< i))
    (xor : ∀ a b, P a → P b → P (a ^^^ b)) (x : BitVec n) : P x := by
  have low : ∀ k ≤ n, P ((x.setWidth k).setWidth n) := by
    intro k hk
    induction k with
    | zero => simpa [BitVec.of_length_zero] using zero
    | succ k ih =>
      rw [setWidth_succ_eq_xor]
      refine xor _ _ (ih (by omega)) ?_
      split
      · exact power k hk
      · exact zero
  simpa using low n le_rfl

/-- A product is a sum of shifts of its second factor, one for each bit of the first. -/
theorem gf2Mul_induction {P : BitVec 24 → Prop} {a b : BitVec 24} (zero : P 0#24)
    (xor : ∀ x y, P x → P y → P (x ^^^ y)) (shift : ∀ i, a.getLsbD i = true → P (b <<< i)) : P (gf2Mul a b) := by
  refine List.foldlRecOn _ _ zero fun acc hacc i _ => ?_
  split
  · exact xor _ _ hacc (shift i ‹_›)
  · exact hacc

theorem gf2Mul_xor_left (a a' b : BitVec 24) : gf2Mul (a ^^^ a') b = gf2Mul a b ^^^ gf2Mul a' b := by
  refine List.foldl_hom₂ (List.range 24) (· ^^^ ·) _ _ _ 0#24 0#24 fun x y i => ?_
  rw [BitVec.getLsbD_xor]
  cases a.getLsbD i <;> cases a'.getLsbD i
  · rfl
  · exact (BitVec.xor_assoc x y _).symm
  · change x ^^^ b <<< i ^^^ y = x ^^^ y ^^^ b <<< i
    ac_rfl
  · exact xor_xor_xor_cancel x y (b <<< i)

theorem oddWeight_xor (p q : BitVec 19) : oddWeight (p ^^^ q) = (oddWeight p ^^ oddWeight q) := by
  refine List.foldl_hom₂ (List.range 19) (· ^^ ·) _ _ _ false false fun x y i => ?_
  rw [BitVec.getLsbD_xor, Bool.xor_assoc, Bool.xor_left_comm (p.getLsbD i), ← Bool.xor_assoc]

/-! ### Multiples of g(x) -/

/-- A multiple of g(x) = x^5 + x^4 + x^2 + 1 by a quotient of at most 19 bits (R109). -/
def IsMultipleOfG (w : BitVec 24) : Prop := ∃ q : BitVec 19, w = gf2Mul (q.setWidth 24) 0b110101#24

theorem isMultipleOfG_zero : IsMultipleOfG 0#24 := ⟨0#19, by decide⟩

theorem isMultipleOfG_shift : ∀ i < 19, IsMultipleOfG (0b110101#24 <<< i) := by
  have h : ∀ i < 19, 0b110101#24 <<< i = gf2Mul ((1#19 <<< i).setWidth 24) 0b110101#24 := by decide +kernel
  exact fun i hi => ⟨_, h i hi⟩

theorem IsMultipleOfG.xor {w w' : BitVec 24} : IsMultipleOfG w → IsMultipleOfG w' → IsMultipleOfG (w ^^^ w')
  | ⟨q, hq⟩, ⟨q', hq'⟩ => ⟨q ^^^ q', by rw [hq, hq', BitVec.setWidth_xor, gf2Mul_xor_left]⟩

/-- The engine's result vanishes on every multiple of g(x), as it does on every shift of g(x) within 24 bits. -/
theorem crcRemainder_of_multiple {w : BitVec 24} : IsMultipleOfG w → crcRemainder w = 0#5
  | ⟨q, hq⟩ => by
    have hshift : ∀ i < 19, crcRemainder (0b110101#24 <<< i) = 0#5 := by decide +kernel
    rw [hq]
    refine gf2Mul_induction (P := fun w => crcRemainder w = 0#5) (by decide +kernel) ?_ fun i hi => hshift i ?_
    · intro x y hx hy
      rw [crcRemainder_xor, hx, hy, BitVec.xor_self]
    · by_contra hge
      simp [BitVec.getLsbD_of_ge q i (by omega)] at hi

/-- The engine's result of a polynomial of degree below 5 is that polynomial. -/
theorem crcRemainder_of_crc : ∀ r : Crc, crcRemainder (r.setWidth 24) = r := by decide +kernel

/-! ### The long division (R109) -/

/-- The bits not yet divided: the 6-bit window or accumulator `x`, with the low `n` bits of the working value below. -/
def undivided (w : BitVec 24) (x : BitVec 6) (n : Nat) : BitVec 24 :=
  x.setWidth 24 <<< n ^^^ (w.setWidth n).setWidth 24

/-- R104: the window of step 1 is the accumulator. -/
theorem crcWindow_first (w : BitVec 24) (acc : BitVec 6) : crcWindow w acc 1 = acc := rfl

/-- R102: before step 1 all of the working value is undivided. -/
theorem undivided_crcAcc_zero (w : BitVec 24) : undivided w (crcAcc w 0) 18 = w := by
  refine BitVec.eq_of_getLsbD_eq fun i hi => ?_
  by_cases h : i < 18
  · simp [undivided, h, hi]
  · simp [undivided, crcAcc, h, hi, show 18 + (i - 18) = i by omega, show i - 18 < 6 by omega]

/-- R104: a window takes the next bit of the working value in. -/
theorem undivided_crcWindow {w : BitVec 24} {acc : BitVec 6} (hflag : feedbackFlag acc = false) {n : Nat}
    (hn : n < 18) : undivided w (crcWindow w acc (19 - n)) n = undivided w acc (n + 1) := by
  have hk : 19 - n ≠ 1 := by omega
  have hbit : 19 - (19 - n) = n := by omega
  have hshift : ∀ (acc : BitVec 6) (b : BitVec 1), feedbackFlag acc = false →
      (acc.extractLsb' 0 5 ++ b).setWidth 24 = acc.setWidth 24 <<< 1 ^^^ b.setWidth 24 := by decide
  have hlow : (w.extractLsb' n 1).setWidth 24 <<< n = if w.getLsbD n then 1#24 <<< n else 0#24 := by
    rw [extractLsb'_one_eq_ite]
    split <;> simp
  rw [undivided, undivided, crcWindow, if_neg hk, hbit, hshift acc _ hflag, BitVec.shiftLeft_xor_distrib, hlow,
    setWidth_succ_eq_xor, ← BitVec.shiftLeft_add, Nat.add_comm 1 n, BitVec.xor_assoc, BitVec.xor_comm (ite _ _ _)]

/-- R103: the feedback rule takes a shift of g(x) off, or nothing. -/
theorem undivided_feedbackRule (w : BitVec 24) (win : BitVec 6) (n : Nat) :
    undivided w (feedbackRule win) n =
      undivided w win n ^^^ (if feedbackFlag win then 0b110101#24 <<< n else 0#24) := by
  rw [feedbackRule_eq_xor, undivided, BitVec.setWidth_xor, BitVec.shiftLeft_xor_distrib, undivided]
  cases feedbackFlag win
  · simp
  · change _ ^^^ 0b110101#24 <<< n ^^^ _ = _ ^^^ _ ^^^ 0b110101#24 <<< n
    ac_rfl

/-- The feedback rule changes what is not yet divided by a multiple of g(x). -/
theorem IsMultipleOfG.xor_feedbackRule {w : BitVec 24} {win : BitVec 6} {n : Nat} (hn : n < 19)
    (h : IsMultipleOfG (w ^^^ undivided w win n)) : IsMultipleOfG (w ^^^ undivided w (feedbackRule win) n) := by
  rw [undivided_feedbackRule, ← BitVec.xor_assoc]
  refine h.xor ?_
  split
  · exact isMultipleOfG_shift n hn
  · exact isMultipleOfG_zero

/-- The loop invariant: after step k + 1 the working value and what is not yet divided differ by a multiple of g(x). -/
theorem isMultipleOfG_xor_undivided (w : BitVec 24) {k : Nat} (hk : k < 19) :
    IsMultipleOfG (w ^^^ undivided w (crcAcc w (k + 1)) (18 - k)) := by
  induction k with
  | zero =>
    refine IsMultipleOfG.xor_feedbackRule (by decide) ?_
    rw [crcWindow_first, undivided_crcAcc_zero, BitVec.xor_self]
    exact isMultipleOfG_zero
  | succ k ih =>
    refine IsMultipleOfG.xor_feedbackRule (by omega) ?_
    have hwin := undivided_crcWindow (w := w) (crcAcc_succ_clears_flag w k) (n := 18 - (k + 1)) (by omega)
    rw [show 19 - (18 - (k + 1)) = k + 1 + 1 by omega, show 18 - (k + 1) + 1 = 18 - k by omega] at hwin
    rw [hwin]
    exact ih (by omega)

/-- R105, R106: after step 19 only the checksum is left. -/
theorem undivided_at_end (w : BitVec 24) : undivided w (crcAcc w 19) 0 = (crcRemainder w).setWidth 24 := by
  have hdrop : ∀ acc : BitVec 6, feedbackFlag acc = false →
      acc.setWidth 24 = (acc.extractLsb' 0 5).setWidth 24 := by decide
  simp [undivided, hdrop _ (crcAcc_succ_clears_flag w 18), crcRemainder, BitVec.of_length_zero]

/-- R109: every working value is the sum of a multiple of g(x) and the engine's result. -/
theorem exists_quotient (w : BitVec 24) :
    ∃ q : BitVec 19, w = gf2Mul (q.setWidth 24) 0b110101#24 ^^^ (crcRemainder w).setWidth 24 := by
  obtain ⟨q, hq⟩ := isMultipleOfG_xor_undivided w (k := 18) (by decide)
  rw [undivided_at_end] at hq
  exact ⟨q, by rw [← hq, BitVec.xor_assoc, BitVec.xor_self, BitVec.xor_zero]⟩

/-- R109: no other polynomial of degree below 5 is a remainder. -/
theorem eq_crcRemainder_of_quotient {w : BitVec 24} {q : BitVec 19} {r : Crc}
    (h : w = gf2Mul (q.setWidth 24) 0b110101#24 ^^^ r.setWidth 24) : r = crcRemainder w := by
  rw [h, crcRemainder_xor, crcRemainder_of_multiple ⟨q, rfl⟩, crcRemainder_of_crc, BitVec.zero_xor]

/-! ### The checksum of a payload (R109 to R111) -/

/-- The remainder of P · x^5 modulo g(x) (R109): the linear part of the checksum. -/
def payloadRemainder (p : BitVec 19) : Crc := crcRemainder (p.setWidth 24 <<< 5)

/-- R101: the working value is P · x^5 and INIT. -/
theorem workingValue_eq_xor (p : BitVec 19) :
    workingValue p = p.setWidth 24 <<< 5 ^^^ (0b00111#5).setWidth 24 := by
  refine BitVec.eq_of_getLsbD_eq fun i hi => ?_
  rw [workingValue_getLsbD]
  change _ = (_ ^^^ Config.init.setWidth 24).getLsbD i
  by_cases h : i < 5
  · simp [h, hi]
  · simp [h, hi, BitVec.getLsbD_of_ge Config.init i (by omega)]

theorem crcOfPayload_eq_xor (p : BitVec 19) : crcOfPayload p = payloadRemainder p ^^^ 0b00111#5 := by
  rw [crcOfPayload_eq_crcRemainder, workingValue_eq_xor, crcRemainder_xor, crcRemainder_of_crc, ← payloadRemainder]

theorem payloadRemainder_xor (p q : BitVec 19) :
    payloadRemainder (p ^^^ q) = payloadRemainder p ^^^ payloadRemainder q := by
  rw [payloadRemainder, BitVec.setWidth_xor, BitVec.shiftLeft_xor_distrib, crcRemainder_xor, ← payloadRemainder,
    ← payloadRemainder]

/-- Settles O30: the quotients of the working value and of P · x^5, with the engine's result as the remainder. -/
theorem checksumIsTheRemainderModuloG : Obligations.ChecksumIsTheRemainderModuloG := by
  unfold Obligations.ChecksumIsTheRemainderModuloG
  intro p
  obtain ⟨q, hq⟩ := exists_quotient (p.setWidth 24 <<< 5)
  exact ⟨exists_quotient (workingValue p), fun _ _ => eq_crcRemainder_of_quotient,
    q, payloadRemainder p, hq, crcOfPayload_eq_xor p⟩

/-- Settles O31: the remainder of the payload is linear, and the checksum is its sum with INIT. -/
theorem checksumIsAffine : Obligations.ChecksumIsAffine := by
  unfold Obligations.ChecksumIsAffine
  refine ⟨fun p q => ?_, by decide +kernel⟩
  rw [crcOfPayload_eq_xor, crcOfPayload_eq_xor, crcOfPayload_eq_xor, payloadRemainder_xor, xor_xor_xor_cancel]

/-- A change of the payload is undetected exactly when the change times x^5 is a multiple of g(x). -/
theorem crcOfPayload_xor_eq_iff (p d : BitVec 19) :
    crcOfPayload (p ^^^ d) = crcOfPayload p ↔ payloadRemainder d = 0#5 := by
  rw [crcOfPayload_eq_xor, crcOfPayload_eq_xor, payloadRemainder_xor]
  simp

/-- Since g(x) has the factor x + 1 (R111), the weight of a payload is odd when that of its remainder is. -/
theorem oddWeight_eq_of_payloadRemainder (d : BitVec 19) :
    oddWeight d = oddWeight ((payloadRemainder d).setWidth 19) := by
  induction d using xor_induction with
  | zero => decide +kernel
  | power i hi =>
    revert i
    decide +kernel
  | xor a b ha hb => rw [payloadRemainder_xor, BitVec.setWidth_xor, oddWeight_xor, oddWeight_xor, ha, hb]

/-- One bit is an odd number of bits. -/
theorem oddWeight_payloadBit : ∀ i < 19, oddWeight (payloadBit i) = true := by decide +kernel

/-- Settles O32: an odd change has an odd, so non-zero, remainder; one bit is an odd change. -/
theorem everySingleOrOddChangeChangesTheChecksum : Obligations.EverySingleOrOddChangeChangesTheChecksum := by
  unfold Obligations.EverySingleOrOddChangeChangesTheChecksum
  have odd : ∀ p d : BitVec 19, oddWeight d = true → crcOfPayload (p ^^^ d) ≠ crcOfPayload p := by
    intro p d hd heq
    rw [oddWeight_eq_of_payloadRemainder, (crcOfPayload_xor_eq_iff p d).1 heq] at hd
    exact absurd hd (by decide)
  exact ⟨fun p i hi => odd p _ (oddWeight_payloadBit i hi), odd⟩

/-- x^15 = 1 modulo g(x), and no lower power is (R111): the remainders of two payload bits. -/
theorem payloadRemainder_payloadBit_eq_iff :
    ∀ i < 19, ∀ j < i, payloadRemainder (payloadBit i) = payloadRemainder (payloadBit j) ↔ i = j + 15 := by
  decide +kernel

/-- Settles O33: a change of two bits is undetected when they have the same remainder. -/
theorem undetectedTwoBitChangesAreFifteenApart : Obligations.UndetectedTwoBitChangesAreFifteenApart := by
  unfold Obligations.UndetectedTwoBitChangesAreFifteenApart
  intro p i j hi hj
  rw [BitVec.xor_assoc, crcOfPayload_xor_eq_iff, payloadRemainder_xor, BitVec.xor_eq_zero_iff,
    payloadRemainder_payloadBit_eq_iff i hi j hj]

end Sys2Proof.Machine
end

section
/-! SUPPORT. The statements on the Frame Encoder (spec/41_frame.md R131 to R142): the frame ENCODE builds carries its
own checksum, and a change of one bit of a frame is one of its checksum field or of its payload; the steps of DECODE
and of a scripted EXCHANGE, written out (R214). -/

namespace Sys2Proof.Machine

/-! ### The frame ENCODE builds (R131 to R136) -/

/-- R135, R136: a sealed frame is complete. -/
theorem frameComplete_sealFrame (b0 b1 : Byte) : FrameComplete (sealFrame b0 b1) := by
  constructor
  · rw [crcOfFrame, sealFrame, crcPayload_sealed]
    exact BitVec.extractLsb'_append_eq_right
  · exact BitVec.extractLsb'_append_eq_left

theorem frameComplete_buildFrame (cfg : DeviceConfig) (reg : Byte) (dir : Direction) (data : Byte) :
    FrameComplete (buildFrame cfg reg dir data) :=
  frameComplete_sealFrame _ data

/-- Every frame that ENCODE returns is complete (R136). -/
theorem frameComplete_of_coreEncode {cfg : DeviceConfig} {reg : Byte} {dir : Direction} {data : Byte} {f : Frame}
    (h : (coreEncode cfg reg dir data).frame = some f) : FrameComplete f :=
  frame_eq_buildFrame h ▸ frameComplete_buildFrame cfg reg dir data

/-- R69: the direction bit as a byte. -/
theorem setWidth_directionBit (dir : Direction) :
    (directionBit dir).setWidth 8 = if dir = .write then 0x01#8 else 0x00#8 := by
  cases dir <;> rfl

theorem controlByte_of_out {cfg : DeviceConfig} (h : cfg.variant = .outDriver) (reg : Byte) (dir : Direction) :
    controlByte cfg reg dir = outControlByte cfg.chipAddr reg dir := by
  rw [controlByte, h]

theorem controlByte_of_in {cfg : DeviceConfig} (h : cfg.variant = .inReceiver) (reg : Byte) (dir : Direction) :
    controlByte cfg reg dir = inControlByte reg dir := by
  rw [controlByte, h]

/-- Settles O35: the index is accepted, and the frame is sealed over the variant's control byte, or it is refused. -/
theorem encodeBuildsTheCommandFrame : Obligations.EncodeBuildsTheCommandFrame := by
  unfold Obligations.EncodeBuildsTheCommandFrame
  rintro cfg reg dir data lim rfl
  rw [← registerLimit_eq_ite, ← registerAccepted_iff]
  refine ⟨fun hreg => ?_, fun hreg => coreEncode_of_refused (by simpa using hreg) dir data⟩
  refine ⟨controlByte cfg reg dir, _, coreEncode_of_accepted hreg dir data,
    coreCrc5_frameBytes ⟨controlByte cfg reg dir, data, 0x00#8⟩, fun hout => ?_, fun hin => ?_⟩
  · rw [controlByte_of_out hout, outControlByte, setWidth_directionBit]
  · rw [controlByte_of_in hin, inControlByte, setWidth_directionBit]

/-- Settles O37. -/
theorem encodedFramesCarryTheirChecksum : Obligations.EncodedFramesCarryTheirChecksum := by
  unfold Obligations.EncodedFramesCarryTheirChecksum
  intro cfg reg dir data f h
  obtain ⟨hcrc, hupper⟩ := frameComplete_of_coreEncode h
  rw [coreCrc5_frameBytes, ← hcrc]
  exact ⟨rfl, hupper⟩

/-! ### A change of one bit (R111, R137, R142) -/

/-- R111: payloads that differ in one bit have different checksums. -/
theorem crcOfPayload_ne_of_xor {p q : BitVec 19} {i : Nat} (hi : i < 19) (h : p ^^^ q = payloadBit i) :
    crcOfPayload p ≠ crcOfPayload q := by
  obtain rfl : q = p ^^^ payloadBit i := by rw [← h, ← BitVec.xor_assoc, BitVec.xor_self, BitVec.zero_xor]
  exact (everySingleOrOddChangeChangesTheChecksum.1 p i hi).symm

/-- The payloads of two frames differ where their bytes do, byte 2 in its bits [7:5] (R26). -/
theorem crcPayload_xor (f g : Frame) :
    crcPayload f ^^^ crcPayload g =
      (f.b0 ^^^ g.b0) ++ (f.b1 ^^^ g.b1) ++ (responseSt2 f ^^^ responseSt2 g) := by
  change (f.b0 ++ f.b1 ++ responseSt2 f : BitVec (8 + 8 + 3)) ^^^ (g.b0 ++ g.b1 ++ responseSt2 g) = _
  rw [BitVec.xor_append, BitVec.xor_append]

/-- R137: of two frames built for the two directions, byte 0 differs in the direction bit. -/
theorem buildFrame_read_xor_write_b0 (cfg : DeviceConfig) (reg data : Byte) :
    (buildFrame cfg reg .read data).b0 ^^^ (buildFrame cfg reg .write data).b0 =
      if cfg.variant = .outDriver then 0x01#8 else 0x80#8 := by
  cases hv : cfg.variant
  · rw [buildFrame_of_out hv, buildFrame_of_out hv, sealFrame, sealFrame, BitVec.xor_append, BitVec.xor_self]
    rfl
  · rw [buildFrame_of_in hv, buildFrame_of_in hv, sealFrame, sealFrame, BitVec.xor_append, BitVec.xor_self]
    rfl

/-- Settles O38: the direction bit is one payload bit, bit 11 or bit 18, so the checksum changes with it. -/
theorem directionFlipChangesOneControlBitAndTheChecksum :
    Obligations.DirectionFlipChangesOneControlBitAndTheChecksum := by
  unfold Obligations.DirectionFlipChangesOneControlBitAndTheChecksum
  intro cfg reg data f g hf hg
  obtain ⟨hfcrc, hfupper⟩ := frameComplete_of_coreEncode hf
  obtain ⟨hgcrc, hgupper⟩ := frameComplete_of_coreEncode hg
  have hb0 : f.b0 ^^^ g.b0 = if cfg.variant = .outDriver then 0x01#8 else 0x80#8 := by
    rw [frame_eq_buildFrame hf, frame_eq_buildFrame hg, buildFrame_read_xor_write_b0]
  have hb1 : f.b1 = g.b1 := by
    rw [frame_eq_buildFrame hf, frame_eq_buildFrame hg]
    rfl
  have hpayload : crcPayload f ^^^ crcPayload g = payloadBit (if cfg.variant = .outDriver then 11 else 18) := by
    rw [crcPayload_xor, hb0, hb1, hfupper, hgupper, BitVec.xor_self, BitVec.xor_self]
    split <;> rfl
  have hcrc : crcOfFrame f ≠ crcOfFrame g := crcOfPayload_ne_of_xor (by split <;> decide) hpayload
  rw [← hfcrc, ← hgcrc] at hcrc
  exact ⟨hb0, hb1, hfupper.trans hgupper.symm, hcrc⟩

/-- The value of a frame is its payload and, below it, its checksum field (R26, R41). -/
theorem frameValue_eq_append (f : Frame) : frameValue f = crcPayload f ++ responseCrc f := by
  have hb2 : f.b2.extractLsb' 5 3 ++ f.b2.extractLsb' 0 5 = f.b2 :=
    (BitVec.extractLsb'_append_extractLsb'_eq_extractLsb' rfl).trans BitVec.extractLsb'_eq_self
  calc frameValue f
      = f.b0 ++ f.b1 ++ (f.b2.extractLsb' 5 3 ++ f.b2.extractLsb' 0 5) := congrArg (f.b0 ++ f.b1 ++ ·) hb2.symm
    _ = crcPayload f ++ responseCrc f := (BitVec.append_assoc (x₁ := f.b0 ++ f.b1)).symm

theorem frameValue_extract_payload (f : Frame) : (frameValue f).extractLsb' 5 19 = crcPayload f := by
  rw [frameValue_eq_append]
  exact BitVec.extractLsb'_append_eq_left

theorem frameValue_extract_checksum (f : Frame) : (frameValue f).extractLsb' 0 5 = responseCrc f := by
  rw [frameValue_eq_append]
  exact BitVec.extractLsb'_append_eq_right

/-- A single bit of a frame's value is a payload bit or a bit of the checksum field. -/
theorem singleBit_fields : ∀ i < 24,
    (i < 5 ∧ (1#24 <<< i).extractLsb' 5 19 = 0#19 ∧ (1#24 <<< i).extractLsb' 0 5 ≠ 0#5) ∨
    (5 ≤ i ∧ (1#24 <<< i).extractLsb' 5 19 = payloadBit (i - 5) ∧ (1#24 <<< i).extractLsb' 0 5 = 0#5) := by
  decide

theorem verifyStatus_eq_ok_iff (f : Frame) : verifyStatus f = .ok ↔ crcOfFrame f = responseCrc f := by
  simp [verifyStatus]

theorem verifyStatus_of_ne {f : Frame} (h : crcOfFrame f ≠ responseCrc f) : verifyStatus f = .checksumMismatch :=
  if_neg h

/-- R111, R142: a change of one bit of a frame whose checksum is right makes it wrong: it changes the checksum field
alone, or the checksum of the payload alone. -/
theorem checksum_ne_of_singleBit {f g : Frame} {i : Nat} (hi : i < 24) (hf : crcOfFrame f = responseCrc f)
    (h : frameValue g = frameValue f ^^^ (1#24 <<< i)) : crcOfFrame g ≠ responseCrc g := by
  have hpayload : crcPayload g = crcPayload f ^^^ (1#24 <<< i).extractLsb' 5 19 := by
    rw [← frameValue_extract_payload, h, BitVec.extractLsb'_xor, frameValue_extract_payload]
  have hfield : responseCrc g = responseCrc f ^^^ (1#24 <<< i).extractLsb' 0 5 := by
    rw [← frameValue_extract_checksum, h, BitVec.extractLsb'_xor, frameValue_extract_checksum]
  obtain ⟨-, hbit, hne⟩ | ⟨h5, hbit, hzero⟩ := singleBit_fields i hi
  · rw [hbit, BitVec.xor_zero] at hpayload
    rw [crcOfFrame, hpayload, hfield, ← crcOfFrame, hf]
    exact fun heq => hne (by simpa using heq.symm)
  · rw [hzero, BitVec.xor_zero, ← hf] at hfield
    rw [crcOfFrame, hpayload, hbit, hfield]
    exact everySingleOrOddChangeChangesTheChecksum.1 (crcPayload f) (i - 5) (by omega)

/-- Settles O45: an encoded frame is complete, and one changed bit makes the checksum of a verified frame wrong. -/
theorem verifyAcceptsEncodedFramesAndDetectsSingleBitErrors :
    Obligations.VerifyAcceptsEncodedFramesAndDetectsSingleBitErrors := by
  unfold Obligations.VerifyAcceptsEncodedFramesAndDetectsSingleBitErrors
  refine ⟨fun cfg reg dir data f h => ?_, fun f g i hi hf h => ?_⟩
  · rw [coreVerify_frameBytes]
    exact (verifyStatus_eq_ok_iff f).2 (frameComplete_of_coreEncode h).1.symm
  · rw [coreVerify_frameBytes] at hf ⊢
    exact verifyStatus_of_ne (checksum_ne_of_singleBit hi ((verifyStatus_eq_ok_iff f).1 hf) h)

/-! ### The operations DECODE and VERIFY (R139 to R142) -/

/-- Settles O41: the input is a frame, whose fields are the ones delivered, or has another length. -/
theorem decodeSplitsAResponse : Obligations.DecodeSplitsAResponse := by
  unfold Obligations.DecodeSplitsAResponse
  exact ⟨fun b0 b1 b2 => coreDecode_frameBytes ⟨b0, b1, b2⟩, fun _ => coreDecode_of_length_ne,
    coreDecode_frameBytes ⟨0x03#8, 0x5a#8, 0x10#8⟩, fun _ => decodeRequest_of_op_10⟩

/-- Settles O43: the checksum that CRC5 answers is the one VERIFY compares. -/
theorem verifyChecksAResponse : Obligations.VerifyChecksAResponse := by
  unfold Obligations.VerifyChecksAResponse
  refine ⟨fun b0 b1 b2 c hc => ?_, fun _ => coreVerify_of_length_ne, fun _ => decodeRequest_of_op_11⟩
  obtain rfl : crcOfFrame ⟨b0, b1, b2⟩ = c := Option.some.inj (congrArg Response.crc hc)
  have hverify := coreVerify_frameBytes ⟨b0, b1, b2⟩
  refine ⟨fun heq => ?_, fun hne => ?_⟩
  · rwa [(verifyStatus_eq_ok_iff _).2 heq] at hverify
  · rwa [verifyStatus_of_ne hne] at hverify

/-- Settles O46: the frame built holds the data byte in byte 1. -/
theorem loopbackPreservesTheDataByte : Obligations.LoopbackPreservesTheDataByte := by
  unfold Obligations.LoopbackPreservesTheDataByte
  intro cfg reg dir data hlim hmem
  have hreg : registerAccepted cfg reg = true := registerAccepted_iff.2 ⟨registerLimit_eq_ite _ ▸ hlim, hmem⟩
  rw [coreEncode_of_accepted hreg]
  exact ⟨_, rfl, rfl, rfl⟩

/-! ### The steps (R214) -/

/-- A CRC5, DECODE or VERIFY step whose operation does not fault delivers its answer (R214). -/
theorem issueChecked_of_delivered {s : State} {r : Response} (hf : s.dev.fault = [])
    (hr : r.status ≠ .invalidInputLength) : issueChecked r s = .next (deliver r (advance s)) := by
  rw [issueChecked, ifRunning_of_running hf, if_neg hr, completeStep]

/-- A DECODE step of a frame's bytes delivers its fields (R139, R214). -/
theorem issueChecked_coreDecode_frameBytes {s : State} (hf : s.dev.fault = []) (f : Frame) :
    issueChecked (coreDecode (frameBytes f)) s = .next (deliver (coreDecode (frameBytes f)) (advance s)) :=
  issueChecked_of_delivered hf (by simp [coreDecode_frameBytes])

/-- The response row of a frame's fields is the frame's value (R67). -/
theorem responseFrameWord_frame (f : Frame) :
    responseFrameWord (responseSt0 f) (responseData f) (responseSt2 f) (responseCrc f) = frameValue f :=
  (frameValue_eq_append f).symm

/-- Settles O42: the row's three bytes are those of the frame it spells, so both steps are the same DECODE. -/
theorem decodeAndResponseStepsComplete : Obligations.DecodeAndResponseStepsComplete := by
  unfold Obligations.DecodeAndResponseStepsComplete
  rintro s i b0 b1 b2 (rfl | rfl) hf
  · exact issueChecked_coreDecode_frameBytes hf ⟨b0, b1, b2⟩
  · have hrow : frameOfValue (responseFrameWord b0 b1 (b2.extractLsb' 5 3) (b2.extractLsb' 0 5)) = ⟨b0, b1, b2⟩ :=
      (congrArg frameOfValue (responseFrameWord_frame ⟨b0, b1, b2⟩)).trans (frameOfValue_frameValue _)
    change issueChecked (coreDecode (frameBytes (frameOfValue (responseFrameWord b0 b1 _ _)))) s = _
    rw [hrow]
    exact issueChecked_coreDecode_frameBytes hf ⟨b0, b1, b2⟩

/-- An EXCHANGE step with a frame pending and a scripted answer sends the frame and delivers the answer (R203, R214). -/
theorem issueExchange_of_script {s : State} {f : Frame} {a : TransportAnswer} {rest : List TransportAnswer}
    (hf : s.dev.fault = []) (hp : s.dev.pending = some f) (ha : s.dev.answers = a :: rest) :
    issueExchange s = .next { s with
      dev := { s.dev with
        pc := s.dev.pc + 1
        pending := none
        delivered := s.dev.delivered ++ [exchangeResponse a]
        answers := rest }
      bus := s.bus ++ busBracket f a } := by
  rw [issueExchange, ifRunning_of_running hf, hp, transportAnswer_of_script ha, consumeAnswer_of_script ha]
  rfl

/-- Settles O47: ENCODE makes the frame pending, the scripted EXCHANGE delivers that frame, and DECODE its byte 1. -/
theorem loopbackSessionDeliversTheDataByte : Obligations.LoopbackSessionDeliversTheDataByte := by
  unfold Obligations.LoopbackSessionDeliversTheDataByte
  intro s reg dir data rest hf hp hreg ha
  refine ⟨_, _, _, buildFrame s.dev.config reg dir data, _, issueEncode_of_accepted hf hp hreg dir data,
    issueExchange_of_script (a := .response _) (rest := rest) ?running rfl ?script, rfl,
    issueChecked_coreDecode_frameBytes ?stillRunning _, rfl, rfl, rfl, hf, rfl⟩
  case running => exact hf
  case script => exact ha
  case stillRunning => exact hf

end Sys2Proof.Machine
end

section
/-! SUPPORT. The invariant of the machine (spec/10_state.md R32, R33, spec/20_memory.md R52, spec/41_frame.md R136):
each shared operation of the session step keeps it, and so does a turn. -/

namespace Sys2Proof.Machine

/-! ### The bus log (R52, R245, R246) -/

theorem wellBracketed_append {l : List BusEvent} (hl : wellBracketed l = true) (l' : List BusEvent) :
    wellBracketed (l ++ l') = wellBracketed l' := by
  induction l using wellBracketed.induct with
  | case1 => rfl
  | case2 f a rest ih => exact ih hl
  | case3 l hnil hbracket => simp [wellBracketed] at hl

theorem sentFrames_append (l l' : List BusEvent) : sentFrames (l ++ l') = sentFrames l ++ sentFrames l' := by
  induction l using sentFrames.induct with
  | case1 => rfl
  | case2 f a rest ih => exact congrArg (f :: ·) ih
  | case3 rest ih => exact ih
  | case4 rest ih => exact ih

/-! ### The responses that a step may deliver (R136, R201, R205) -/

/-- What the invariant asks of a delivered response: a complete frame, if any, and no status that faults a session. -/
structure Response.Deliverable (r : Response) : Prop where
  frameComplete : ∀ f, r.frame = some f → FrameComplete f
  notFatal : r.status ≠ .invalidInputLength ∧ r.status ≠ .protocolHazard

/-- CRC5, DECODE and VERIFY answer no frame and no ProtocolHazard. -/
theorem checkedResponses_frame_status {r : Response} (h : checkedResponses r) :
    r.frame = none ∧ r.status ≠ .protocolHazard := by
  obtain ⟨b, rfl | rfl | rfl⟩ := h
  all_goals obtain ⟨f, rfl⟩ | hlen := eq_frameBytes_or_length_ne b
  · simp [coreCrc5_frameBytes]
  · simp [coreCrc5_of_length_ne hlen]
  · simp [coreDecode_frameBytes]
  · simp [coreDecode_of_length_ne hlen]
  · obtain hok | hmismatch := verifyStatus_cases f
    · simp [coreVerify_frameBytes, hok]
    · simp [coreVerify_frameBytes, hmismatch]
  · simp [coreVerify_of_length_ne hlen]

theorem deliverable_of_checked {r : Response} (h : checkedResponses r) (hs : r.status ≠ .invalidInputLength) :
    r.Deliverable := by
  obtain ⟨hframe, hstatus⟩ := checkedResponses_frame_status h
  exact ⟨by simp [hframe], hs, hstatus⟩

theorem deliverable_of_frameComplete {f : Frame} (h : FrameComplete f) :
    Response.Deliverable { status := .ok, frame := some f } :=
  ⟨fun _ hf => Option.some.inj hf ▸ h, by simp⟩

theorem deliverable_invalidRegister : Response.Deliverable { status := .invalidRegister } := ⟨by simp, by simp⟩

theorem deliverable_exchangeResponse (a : TransportAnswer) : (exchangeResponse a).Deliverable := by
  cases a
  · exact ⟨by simp [exchangeResponse], by simp [exchangeResponse]⟩
  · exact ⟨by simp [exchangeResponse], by simp [exchangeResponse]⟩

/-! ### Each shared operation keeps the invariant -/

section
variable {s : State} (hs : State.Inv s)
include hs

/-- A recorded fault is the only one, at the session's position (R32). -/
theorem State.Inv.recordFault (hf : s.dev.fault = []) (e : SessionError) : State.Inv (recordFault e s) :=
  { hs with
    dev := { hs.dev with
      oneFault := by simp [hf]
      faultPosition := by simp [hf] } }

/-- A delivered response stands for the step that advances (R33, R206). -/
theorem State.Inv.deliver_advance {r : Response} (hf : s.dev.fault = []) (hpc : s.dev.pc < s.dev.program.length)
    (hr : r.Deliverable) : State.Inv (deliver r (advance s)) :=
  { hs with
    dev := { hs.dev with
      framesComplete :=
        List.forall_mem_append.2 ⟨hs.dev.framesComplete, List.forall_mem_singleton.2 hr.frameComplete⟩
      faultPosition := by simp [hf]
      oneResponsePerStep := by simp [hs.dev.oneResponsePerStep]
      noFatalDelivered :=
        List.forall_mem_append.2 ⟨hs.dev.noFatalDelivered, List.forall_mem_singleton.2 hr.notFatal⟩
      withinProgram := hpc } }

theorem State.Inv.setPending {p : Option Frame} (hp : ∀ f, p = some f → FrameComplete f) :
    State.Inv (setPending p s) :=
  { hs with dev := { hs.dev with pendingComplete := hp } }

theorem State.Inv.consumeAnswer : State.Inv (consumeAnswer s) := by
  unfold Machine.consumeAnswer
  split
  · exact { hs with dev := { hs.dev with } }
  · exact { hs with }

/-- A whole bracket around a complete frame goes on the bus (R52, R246). -/
theorem State.Inv.logBus {f : Frame} (hf : FrameComplete f) (a : TransportAnswer) : State.Inv (logBus f a s) :=
  { hs with
    bracketed := by rw [logBus_bus, wellBracketed_append hs.bracketed]; rfl
    sentComplete := by
      rw [logBus_bus, sentFrames_append]
      exact List.forall_mem_append.2 ⟨hs.sentComplete, List.forall_mem_singleton.2 hf⟩ }

/-- A turn exchanges two sessions or none (R213). -/
theorem State.Inv.takeTurn : State.Inv (takeTurn s) := by
  obtain ⟨-, hkept⟩ | ⟨k, rest, d, -, hd, hexchanged⟩ := takeTurn_cases s
  · rw [hkept]
    exact { hs with }
  · rw [hexchanged]
    refine { hs with dev := hs.others d (List.mem_of_getElem? hd), others := fun d' hd' => ?_ }
    obtain hmem | rfl := List.mem_or_eq_of_mem_set hd'
    · exact hs.others d' hmem
    · exact hs.dev

/-! ### Every step keeps the invariant -/

/-- An ENCODE step makes only complete frames pending and delivers only those (R136). -/
theorem State.Inv.issueEncode {t : State} {reg : Byte} {dir : Direction} {data : Byte}
    (hpc : s.dev.pc < s.dev.program.length) (h : issueEncode reg dir data s = .next t) : State.Inv t := by
  have hcomplete := frameComplete_buildFrame s.dev.config reg dir data
  obtain ⟨hf, ⟨-, rfl⟩ | ⟨-, -, rfl⟩ | ⟨-, -, rfl⟩⟩ := issueEncode_next h
  · exact hs.recordFault hf _
  · exact (hs.setPending fun _ hp => Option.some.inj hp ▸ hcomplete).deliver_advance hf hpc
      (deliverable_of_frameComplete hcomplete)
  · exact hs.deliver_advance hf hpc deliverable_invalidRegister

/-- An EXCHANGE step sends the pending frame, which is complete (R246). -/
theorem State.Inv.issueExchange {t : State} (hpc : s.dev.pc < s.dev.program.length)
    (h : issueExchange s = .next t) : State.Inv t := by
  obtain ⟨hf, ⟨-, rfl⟩ | ⟨f, hp, rfl⟩⟩ := issueExchange_next h
  · exact hs.recordFault hf _
  · have hsent := (hs.consumeAnswer.logBus (hs.dev.pendingComplete f hp) (transportAnswer s)).setPending
      (p := none) (by simp)
    exact hsent.deliver_advance (by simpa using hf) (by simpa using hpc) (deliverable_exchangeResponse _)

/-- Every instruction keeps the invariant, in one of the four kinds of step (R214). -/
theorem State.Inv.exec {t : State} {i : Instr} (hpc : s.dev.pc < s.dev.program.length) (h : exec i s = .next t) :
    State.Inv t := by
  obtain ⟨hf, ⟨e, rfl⟩ | ⟨r, hchecked, hstatus, rfl⟩ | ⟨reg, dir, data, henc⟩ | ⟨-, hexch⟩⟩ := exec_next h
  · exact hs.recordFault hf e
  · exact hs.deliver_advance hf hpc (deliverable_of_checked hchecked hstatus)
  · exact hs.issueEncode hpc henc
  · exact hs.issueExchange hpc hexch

end

/-- Settles O3: a step is a turn and an instruction at a position within the program. -/
theorem everyStepKeepsTheInvariant : Obligations.EveryStepKeepsTheInvariant := by
  unfold Obligations.EveryStepKeepsTheInvariant
  intro s t hs h
  obtain ⟨item, i, hitem, -, hexec⟩ := step_next h
  have hpc : (takeTurn s).dev.pc < (takeTurn s).dev.program.length := (List.getElem?_eq_some_iff.1 hitem).1
  exact hs.takeTurn.exec hpc hexec

end Sys2Proof.Machine
end

section
/-! SUPPORT. The statements on the errors of a session step (spec/60_exceptions.md R200 to R206, R214, R216): one
equation per shared operation and case, what a recorded fault leaves, and the order of the errors. -/

namespace Sys2Proof.Machine

/-! ### The status codes (R200) -/

/-- The status that a code stands for; the codes 6 and 7, which stand for none, read as the last. -/
def statusOfCode (c : BitVec 3) : Status :=
  match c.toNat with
  | 0 => .ok
  | 1 => .invalidInputLength
  | 2 => .invalidRegister
  | 3 => .transportFailure
  | 4 => .checksumMismatch
  | _ => .protocolHazard

theorem statusOfCode_statusCode (a : Status) : statusOfCode (statusCode a) = a := by cases a <;> rfl

theorem statusCode_lt_six (a : Status) : statusCode a < 6#3 := by cases a <;> decide

/-- Settles O54: a code reads back as its status, and every code is below 6. -/
theorem statusCodesAreDistinctAndBelowSix : Obligations.StatusCodesAreDistinctAndBelowSix := by
  unfold Obligations.StatusCodesAreDistinctAndBelowSix
  have injective : Function.Injective statusCode := Function.LeftInverse.injective statusOfCode_statusCode
  refine ⟨rfl, rfl, rfl, rfl, rfl, rfl, fun _ _ h => injective h, fun a => ?_⟩
  have hlt := statusCode_lt_six a
  exact ⟨fun h6 => absurd (h6 ▸ hlt) (by decide), fun h7 => absurd (h7 ▸ hlt) (by decide)⟩

/-! ### A recorded fault (R201, R205, R207) -/

/-- In a running session the record is the only one. -/
theorem recordFault_of_running {s : State} (hf : s.dev.fault = []) (e : SessionError) :
    recordFault e s = { s with dev := { s.dev with fault := [⟨e, s.dev.pc⟩] } } := by
  rw [recordFault, hf, List.nil_append]

theorem recordFault_faults (e : SessionError) (s : State) : (recordFault e s).dev.fault ≠ [] := by simp

/-- After a recorded fault there is no step (R32, R214). -/
theorem exec_recordFault_ne_next (e : SessionError) (s : State) (j : Instr) (u : State) :
    exec j (recordFault e s) ≠ .next u := by
  rw [exec_of_faulted j (recordFault_faults e s)]
  nofun

/-- An outcome that records a fault in a running session appends the record, changes nothing else, and is the last. -/
theorem faults_and_stops {s : State} {o : Host.Outcome State Fault Refusal} {e : SessionError}
    (hf : s.dev.fault = []) (ho : o = .next (recordFault e s)) :
    ∃ t, o = .next t ∧ t = { s with dev := { s.dev with fault := [⟨e, s.dev.pc⟩] } } ∧
      ∀ (j : Instr) (u : State), exec j t ≠ .next u :=
  ⟨_, ho, recordFault_of_running hf e, exec_recordFault_ne_next e s⟩

/-! ### Each shared operation, by its case (R214) -/

section
variable {s : State} (hf : s.dev.fault = [])
include hf

theorem issueChecked_of_wrongLength {r : Response} (hr : r.status = .invalidInputLength) :
    issueChecked r s = .next (recordFault .invalidInputLength s) := by
  rw [issueChecked, ifRunning_of_running hf, if_pos hr, raiseFault]

theorem issueEncode_of_pending (hp : s.dev.pending ≠ none) (reg : Byte) (dir : Direction) (data : Byte) :
    issueEncode reg dir data s = .next (recordFault .protocolHazard s) := by
  rw [issueEncode, ifRunning_of_running hf, if_neg hp, raiseFault]

theorem issueEncode_of_refused (hp : s.dev.pending = none) {reg : Byte}
    (hreg : registerAccepted s.dev.config reg = false) (dir : Direction) (data : Byte) :
    issueEncode reg dir data s = .next (deliver { status := .invalidRegister } (advance s)) := by
  rw [issueEncode, ifRunning_of_running hf, if_pos hp, coreEncode_of_refused hreg]
  rfl

theorem issueExchange_of_no_pending (hp : s.dev.pending = none) :
    issueExchange s = .next (recordFault .protocolHazard s) := by
  rw [issueExchange, ifRunning_of_running hf, hp]
  rfl

theorem issueExchange_of_pending {f : Frame} (hp : s.dev.pending = some f) :
    issueExchange s = .next (deliver (exchangeResponse (transportAnswer s))
      (advance (setPending none (logBus f (transportAnswer s) (consumeAnswer s))))) := by
  rw [issueExchange, ifRunning_of_running hf, hp]
  rfl

end

/-- CRC5, DECODE and VERIFY answer InvalidInputLength exactly to a wrong length (R201). -/
theorem status_invalidInputLength_iff (b : List Byte) :
    ((coreCrc5 b).status = .invalidInputLength ↔ b.length ≠ 3) ∧
    ((coreDecode b).status = .invalidInputLength ↔ b.length ≠ 3) ∧
    ((coreVerify b).status = .invalidInputLength ↔ b.length ≠ 3) :=
  (illegalRequestsAreExactlyTheseAndRaise Config.resetDevice).2 b

/-- READ and WRITE are ENCODE steps of their register (R75). -/
theorem exec_eq_issueEncode {i : Instr} {reg : Byte} {dir : Direction} {data : Byte}
    (hi : i = .encode reg dir data ∨ i = .read reg ∨ i = .write reg data) (s : State) :
    ∃ dir' data', exec i s = issueEncode reg dir' data' s := by
  obtain rfl | rfl | rfl := hi
  · exact ⟨dir, data, rfl⟩
  · exact ⟨.read, 0x00#8, rfl⟩
  · exact ⟨.write, data, rfl⟩

/-! ### Steps that complete -/

/-- Settles O39: each of the three is the ENCODE step of an accepted register. -/
theorem encodeStepsMakeTheFramePending : Obligations.EncodeStepsMakeTheFramePending := by
  unfold Obligations.EncodeStepsMakeTheFramePending
  intro s i reg dir data hi hf hp hreg
  have hstep := issueEncode_of_accepted hf hp hreg dir data
  obtain rfl | ⟨rfl, rfl, rfl⟩ | ⟨rfl, rfl⟩ := hi
  · exact hstep
  · exact hstep
  · exact hstep

/-- Settles O40: each of the three is the ENCODE step of a register that is not accepted. -/
theorem invalidRegisterIsDeliveredWithoutAFrame : Obligations.InvalidRegisterIsDeliveredWithoutAFrame := by
  unfold Obligations.InvalidRegisterIsDeliveredWithoutAFrame
  intro s i reg dir data hi hf hp hrefused
  obtain ⟨dir', data', hexec⟩ := exec_eq_issueEncode hi s
  have hreg : registerAccepted s.dev.config reg = false := by
    rwa [← registerLimit_eq_ite, ← registerAccepted_iff, Bool.not_eq_true] at hrefused
  exact ⟨_, hexec.trans (issueEncode_of_refused hf hp hreg dir' data'), rfl, hp, hf, rfl⟩

/-- Settles O44: VERIFY of three bytes does not answer InvalidInputLength, so its answer is delivered. -/
theorem verifyAndCheckStepsComplete : Obligations.VerifyAndCheckStepsComplete := by
  unfold Obligations.VerifyAndCheckStepsComplete
  refine ⟨rfl, fun s i b0 b1 b2 hi hf => ?_⟩
  obtain ⟨-, -, hverify⟩ := status_invalidInputLength_iff [b0, b1, b2]
  have hstatus : (coreVerify [b0, b1, b2]).status ≠ .invalidInputLength := hverify.not.2 (not_not_intro rfl)
  obtain rfl | rfl := hi
  · exact issueChecked_of_delivered hf hstatus
  · exact issueChecked_of_delivered hf hstatus

/-- Settles O50, for a response frame and for a failure. -/
theorem exchangeSendsPendingAndDeliversTheAnswer : Obligations.ExchangeSendsPendingAndDeliversTheAnswer := by
  unfold Obligations.ExchangeSendsPendingAndDeliversTheAnswer
  refine ⟨rfl, fun s f a rest hf hp ha => ?_⟩
  have hstep := issueExchange_of_script hf hp ha
  cases a with
  | response g => exact hstep
  | failure => exact hstep

/-- Settles O51: the answer is what the transport gives at this step, a response frame or a failure. -/
theorem unscriptedExchangeCompletesWithSomeAnswer : Obligations.UnscriptedExchangeCompletesWithSomeAnswer := by
  unfold Obligations.UnscriptedExchangeCompletesWithSomeAnswer
  intro s f hf hp _
  refine ⟨transportAnswer s, _, issueExchange_of_pending hf hp, rfl, by simp, by simp [busBracket], ?_⟩
  cases transportAnswer s with
  | response g => exact .inl ⟨g, rfl, by simp [exchangeResponse]⟩
  | failure => exact .inr ⟨rfl, by simp [exchangeResponse]⟩

/-! ### Steps that fault -/

/-- Settles O48: the operation answers InvalidInputLength, which the step records. -/
theorem wrongLengthFaultsTheSession : Obligations.WrongLengthFaultsTheSession := by
  unfold Obligations.WrongLengthFaultsTheSession
  intro s i b hi hlen hf
  refine faults_and_stops hf ?_
  obtain ⟨hcrc5, hdecode, hverify⟩ := status_invalidInputLength_iff b
  obtain rfl | rfl | rfl := hi
  · exact issueChecked_of_wrongLength hf (hcrc5.2 hlen)
  · exact issueChecked_of_wrongLength hf (hdecode.2 hlen)
  · exact issueChecked_of_wrongLength hf (hverify.2 hlen)

/-- Settles O49: both orders of ENCODE and EXCHANGE that break the contract record ProtocolHazard. -/
theorem brokenContractFaultsTheSession : Obligations.BrokenContractFaultsTheSession := by
  unfold Obligations.BrokenContractFaultsTheSession
  intro s i reg dir data hi hf
  refine faults_and_stops hf ?_
  obtain ⟨hi, hp⟩ | ⟨rfl, hp⟩ := hi
  · obtain ⟨dir', data', hexec⟩ := exec_eq_issueEncode hi s
    exact hexec.trans (issueEncode_of_pending hf hp reg dir' data')
  · exact issueExchange_of_no_pending hf hp

/-- Settles O55: ProtocolHazard is found before the operation or the transport is asked, the length before the
checksum; and each kind of next state delivers one response or records a fault. -/
theorem earlierErrorsWin : Obligations.EarlierErrorsWin := by
  unfold Obligations.EarlierErrorsWin
  refine ⟨fun s reg dir data hf hp _ => ?_, fun b hlen => ?_, fun s _ hf hp _ => ?_, fun i s t h => ?_⟩
  · rw [← recordFault_of_running hf]
    exact issueEncode_of_pending hf hp reg dir data
  · rw [coreVerify_of_length_ne hlen]
  · rw [← recordFault_of_running hf]
    exact issueExchange_of_no_pending hf hp
  · obtain ⟨e, rfl⟩ | ⟨r, rfl⟩ | ⟨-, f, rfl⟩ | ⟨-, f, -, rfl⟩ := exec_next_state h
    · exact .inr (by simp)
    · exact .inl ⟨rfl, r, rfl⟩
    · exact .inl ⟨rfl, _, rfl⟩
    · exact .inl ⟨by simp, exchangeResponse (transportAnswer s), by simp⟩

end Sys2Proof.Machine
end

section
/-! SUPPORT. The statements on runs (spec/60_exceptions.md R213, R214; log 9): whose turn it is, the end of a program,
and the caller's contract: a step completes exactly when the contract allows it, and leaves a frame pending or not as
the contract counts. -/

namespace Sys2Proof.Machine

/-! ### Turns and the end of a program -/

/-- Settles O9: a turn keeps every session in its place, or exchanges the current one with the one it names. -/
theorem turnsReorderSessionsAndReachEveryOne : Obligations.TurnsReorderSessionsAndReachEveryOne := by
  unfold Obligations.TurnsReorderSessionsAndReachEveryOne
  refine ⟨fun s => ?_, fun s k rest d hturns hd => ?_, fun s hnone => ?_⟩
  · obtain ⟨-, hkept⟩ | ⟨k, rest, d, hturns, hd, hexchanged⟩ := takeTurn_cases s
    · rw [hkept]
      exact ⟨.rfl, rfl, rfl, rfl⟩
    · have hperm := s.others.getD_set_perm_cons k s.dev
      rw [hd, Option.getD_some] at hperm
      rw [hexchanged, hturns]
      exact ⟨hperm, rfl, rfl, rfl⟩
  · obtain ⟨hnone, -⟩ | ⟨k', rest', d', hturns', hd', hexchanged⟩ := takeTurn_cases s
    · exact absurd ((hnone k rest hturns).symm.trans hd) nofun
    · obtain ⟨rfl, rfl⟩ : k = k' ∧ rest = rest' := by simpa using hturns.symm.trans hturns'
      obtain rfl : d = d' := Option.some.inj (hd.symm.trans hd')
      rw [hexchanged]
      exact ⟨rfl, rfl⟩
  · obtain ⟨-, hkept⟩ | ⟨k, rest, d, hturns, hd, -⟩ := takeTurn_cases s
    · rw [hkept]
      exact ⟨rfl, rfl⟩
    · exact absurd ((hnone k rest hturns).symm.trans hd) nofun

/-- Settles O6: past the program there is no item to fetch. -/
theorem noStepPastTheEndOfTheProgram : Obligations.NoStepPastTheEndOfTheProgram := by
  unfold Obligations.NoStepPastTheEndOfTheProgram
  intro s hf hend
  have hnone : fetchItem (takeTurn s) = none := List.getElem?_eq_none hend
  simp [step, hf, hnone]

/-! ### One step against the contract (R201, R205, R244, R246) -/

/-- The outcome of a step that the contract allows when `ok`: it then completes without a fault and leaves a frame
pending when `pend`; otherwise it leaves no running session. -/
def MeetsContract (o : Host.Outcome State Fault Refusal) (ok pend : Bool) : Prop :=
  (ok = true ∧ ∃ t, o = .next t ∧ t.dev.fault = [] ∧ t.dev.pending.isSome = pend) ∨
  (ok = false ∧ ∀ t, o = .next t → t.dev.fault ≠ [])

theorem meetsContract_of_recordFault {o : Host.Outcome State Fault Refusal} {e : SessionError} {s : State}
    (h : o = .next (recordFault e s)) (pend : Bool) : MeetsContract o false pend := by
  refine .inr ⟨rfl, fun t ht => ?_⟩
  obtain rfl : recordFault e s = t := by simpa [h] using ht
  exact recordFault_faults e s

section
variable {s : State} (hf : s.dev.fault = [])
include hf

/-- A checked operation is allowed exactly when its input has 3 bytes, and keeps `pending`. -/
theorem issueChecked_meetsContract {r : Response} {b : List Byte}
    (hr : r.status = .invalidInputLength ↔ b.length ≠ 3) :
    MeetsContract (issueChecked r s) (b.length == 3) s.dev.pending.isSome := by
  by_cases hlen : b.length = 3
  · rw [beq_iff_eq.2 hlen]
    exact .inl ⟨rfl, _, issueChecked_of_delivered hf (hr.not.2 (not_not_intro hlen)), hf, rfl⟩
  · rw [beq_eq_false_iff_ne.2 hlen]
    exact meetsContract_of_recordFault (issueChecked_of_wrongLength hf (hr.2 hlen)) _

/-- An ENCODE is allowed exactly when nothing is pending, and makes a frame pending when its register is accepted. -/
theorem issueEncode_meetsContract (reg : Byte) (dir : Direction) (data : Byte) :
    MeetsContract (issueEncode reg dir data s) (!s.dev.pending.isSome) (registerAccepted s.dev.config reg) := by
  cases hp : s.dev.pending with
  | some f => exact meetsContract_of_recordFault (issueEncode_of_pending hf (by simp [hp]) reg dir data) _
  | none =>
    cases hreg : registerAccepted s.dev.config reg with
    | true => exact .inl ⟨rfl, _, issueEncode_of_accepted hf hp hreg dir data, hf, rfl⟩
    | false => exact .inl ⟨rfl, _, issueEncode_of_refused hf hp hreg dir data, hf, by simp [hp]⟩

/-- An EXCHANGE is allowed exactly when a frame is pending, and clears it. -/
theorem issueExchange_meetsContract : MeetsContract (issueExchange s) s.dev.pending.isSome false := by
  cases hp : s.dev.pending with
  | none => exact meetsContract_of_recordFault (issueExchange_of_no_pending hf hp) _
  | some f => exact .inl ⟨rfl, _, issueExchange_of_pending hf hp, by simpa using hf, by simp⟩

/-- An OUT row is allowed exactly when it is of this device's chip address and its ENCODE is allowed (log 6). -/
theorem issueFrame_out_meetsContract (hv : s.dev.config.variant = .outDriver) (a : BitVec 2) (reg : Byte)
    (dir : Direction) (data : Byte) :
    MeetsContract (issueFrame .outDriver (some a) reg dir data s)
      (a == s.dev.config.chipAddr && !s.dev.pending.isSome) (registerAccepted s.dev.config reg) := by
  by_cases ha : a = s.dev.config.chipAddr
  · rw [issueFrame_of_own hv (.inr (congrArg some ha)), beq_iff_eq.2 ha, Bool.true_and]
    exact issueEncode_meetsContract hf reg dir data
  · rw [issueFrame_of_other_chip hf hv (Ne.symm ha), beq_eq_false_iff_ne.2 ha, Bool.false_and]
    exact .inr ⟨rfl, nofun⟩

/-- An IN row is allowed exactly when its ENCODE is. -/
theorem issueFrame_in_meetsContract (hv : s.dev.config.variant = .inReceiver) (reg : Byte) (dir : Direction)
    (data : Byte) :
    MeetsContract (issueFrame .inReceiver none reg dir data s) (!s.dev.pending.isSome)
      (registerAccepted s.dev.config reg) := by
  rw [issueFrame_of_own hv (.inl rfl)]
  exact issueEncode_meetsContract hf reg dir data

/-- What a step does of an instruction in the device's layout is what the contract counts for it, whatever follows. -/
theorem exec_meetsContract {i : Instr} (hlayout : layoutOf i = none ∨ layoutOf i = some s.dev.config.variant) :
    ∃ ok pend, MeetsContract (exec i s) ok pend ∧ ∀ rest,
      keepsContract s.dev.config s.dev.pending.isSome (i :: rest) =
        (ok && keepsContract s.dev.config pend rest) := by
  have own : ∀ v, layoutOf i = some v → s.dev.config.variant = v := fun v hv => by
    simpa [hv, eq_comm] using hlayout
  cases i with
  | crc5 b =>
    obtain ⟨hcrc5, -, -⟩ := status_invalidInputLength_iff b
    exact ⟨_, _, issueChecked_meetsContract hf hcrc5, fun _ => rfl⟩
  | decode b =>
    obtain ⟨-, hdecode, -⟩ := status_invalidInputLength_iff b
    exact ⟨_, _, issueChecked_meetsContract hf hdecode, fun _ => rfl⟩
  | verify b =>
    obtain ⟨-, -, hverify⟩ := status_invalidInputLength_iff b
    exact ⟨_, _, issueChecked_meetsContract hf hverify, fun _ => rfl⟩
  | check b0 b1 b2 =>
    obtain ⟨-, -, hverify⟩ := status_invalidInputLength_iff [b0, b1, b2]
    exact ⟨_, _, issueChecked_meetsContract hf hverify, fun _ => rfl⟩
  | frameResponse st0 rdata st2 rxcrc =>
    obtain ⟨-, hdecode, -⟩ :=
      status_invalidInputLength_iff (frameBytes (frameOfValue (responseFrameWord st0 rdata st2 rxcrc)))
    exact ⟨_, _, issueChecked_meetsContract hf hdecode, fun _ => rfl⟩
  | encode | read | write => exact ⟨_, _, issueEncode_meetsContract hf _ _ _, fun _ => rfl⟩
  | frameOutRead | frameOutWrite =>
    exact ⟨_, _, issueFrame_out_meetsContract hf (own _ rfl) _ _ _ _, fun _ => rfl⟩
  | frameInRead | frameInWrite =>
    exact ⟨_, _, issueFrame_in_meetsContract hf (own _ rfl) _ _ _, fun _ => rfl⟩
  | exchange => exact ⟨_, _, issueExchange_meetsContract hf, fun _ => rfl⟩

end

/-! ### A run (R214) -/

/-- A running session, no turns listed, with the instructions `p` before it and nothing after them. -/
structure HasLeft (s : State) (p : List Instr) : Prop where
  running : s.dev.fault = []
  noTurns : s.turns = []
  left : ∃ run, s.dev.program = run ++ p.map encode ∧ run.length = s.dev.pc

/-- A pseudo-operation has the effect of its expansion (R75). -/
theorem exec_expandPseudo (i : Instr) (s : State) : exec (expandPseudo i) s = exec i s := by cases i <;> rfl

/-- The next step runs the first instruction left, if it is in the device's layout (R73, R75). -/
theorem HasLeft.step_eq_exec {s : State} {i : Instr} {rest : List Instr} (h : HasLeft s (i :: rest))
    (hlayout : layoutOf i = none ∨ layoutOf i = some s.dev.config.variant) : step s = exec i s := by
  have hturn := takeTurn_of_no_turns h.noTurns
  obtain ⟨run, hprogram, hpc⟩ := h.left
  have hitem : fetchItem s = some (encode i) := by simp [fetchItem, hprogram, ← hpc]
  have hdec : decodeItem s.dev.config.variant (encode i) = .ok (expandPseudo i) :=
    decodeReadsBackEveryEncoding i _ hlayout
  have hstep : step s = exec (expandPseudo i) (takeTurn s) :=
    step_of_decoded (hturn.symm ▸ h.running) (hturn.symm ▸ hitem) (hturn.symm ▸ hdec)
  rw [hstep, hturn, exec_expandPseudo]

/-- A step that does not fault leaves the rest. -/
theorem HasLeft.of_exec {s t : State} {i j : Instr} {rest : List Instr} (h : HasLeft s (i :: rest))
    (hexec : exec j s = .next t) (hf : t.dev.fault = []) : HasLeft t rest := by
  obtain ⟨-, hprog, -, hturns⟩ := exec_keeps_config_program_others_turns hexec
  obtain ⟨run, hprogram, hpc⟩ := h.left
  obtain ⟨e, rfl⟩ | ⟨-, hadv⟩ := exec_faults_or_advances hexec
  · exact absurd hf (recordFault_faults e s)
  · exact ⟨hf, hturns.trans h.noTurns, run ++ [encode i], by simp [hprog, hprogram], by simp [hadv, hpc]⟩

/-- `k` steps end, and the session is then at a clean end. -/
def RunsClean (k : Nat) (s : State) : Prop := ∃ t, runSteps k s = .next t ∧ cleanEnd t.dev = true

theorem runsClean_succ_of_next {s t : State} (h : step s = .next t) (k : Nat) :
    RunsClean (k + 1) s ↔ RunsClean k t := by
  simp only [RunsClean, runSteps, h]

theorem not_runsClean_succ {s : State} {k : Nat} (h : ∀ t, step s = .next t → ¬ RunsClean k t) :
    ¬ RunsClean (k + 1) s := by
  rintro ⟨u, hrun, hclean⟩
  cases hstep : step s with
  | next t => exact h t hstep ⟨u, by simpa [runSteps, hstep] using hrun, hclean⟩
  | fault r => simp [runSteps, hstep] at hrun
  | refused r => simp [runSteps, hstep] at hrun

/-- A faulted session never reaches a clean end (R32). -/
theorem not_runsClean_of_faulted {s : State} (hf : s.dev.fault ≠ []) (hturns : s.turns = []) (k : Nat) :
    ¬ RunsClean k s := by
  cases k with
  | zero =>
    rintro ⟨_, ⟨⟩, hclean⟩
    simp [cleanEnd, hf] at hclean
  | succ k =>
    have hstep : step s = .fault .sessionFaulted := step_of_faulted (by rwa [takeTurn_of_no_turns hturns])
    exact not_runsClean_succ fun t ht => absurd (hstep.symm.trans ht) nofun

/-- With nothing left the session is at its clean end. -/
theorem HasLeft.runsClean_zero {s : State} (h : HasLeft s []) : RunsClean 0 s := by
  obtain ⟨run, hprogram, hpc⟩ := h.left
  exact ⟨s, rfl, by simp [cleanEnd, h.running, hprogram, hpc]⟩

/-- The instructions left run clean exactly when they keep the contract, from any state of `pending`. -/
theorem HasLeft.runsClean_iff {p : List Instr} {s : State} (h : HasLeft s p)
    (hlayout : ∀ i ∈ p, layoutOf i = none ∨ layoutOf i = some s.dev.config.variant) :
    RunsClean p.length s ↔ keepsContract s.dev.config s.dev.pending.isSome p = true := by
  induction p generalizing s with
  | nil => exact iff_of_true h.runsClean_zero rfl
  | cons i rest ih =>
    obtain ⟨hfirst, hrest⟩ := List.forall_mem_cons.1 hlayout
    have hstep := h.step_eq_exec hfirst
    obtain ⟨ok, pend, hmeets, hcontract⟩ := exec_meetsContract h.running hfirst
    rw [hcontract, List.length_cons]
    obtain ⟨rfl, t, hexec, hf, rfl⟩ | ⟨rfl, hbreaks⟩ := hmeets
    · obtain ⟨hcfg, -⟩ := exec_keeps_config_program_others_turns hexec
      rw [runsClean_succ_of_next (hstep.trans hexec), Bool.true_and, ← hcfg]
      exact ih (h.of_exec hexec hf) (hcfg ▸ hrest)
    · refine iff_of_false (not_runsClean_succ fun t ht => ?_) (by simp)
      have hexec : exec i s = .next t := hstep.symm.trans ht
      obtain ⟨-, -, -, hturns⟩ := exec_keeps_config_program_others_turns hexec
      exact not_runsClean_of_faulted (hbreaks t hexec) (hturns.trans h.noTurns) _

/-- Settles O15: a new session has its whole program left and nothing pending. -/
theorem aRunIsCleanExactlyWhenTheContractIsKept : Obligations.ARunIsCleanExactlyWhenTheContractIsKept := by
  unfold Obligations.ARunIsCleanExactlyWhenTheContractIsKept
  intro cfg p answers s hdev hturns hlayout
  have hleft : HasLeft s p := ⟨by rw [hdev]; rfl, hturns, [], by rw [hdev]; rfl, by rw [hdev]; rfl⟩
  have hiff := hleft.runsClean_iff (by rw [hdev]; exact hlayout)
  rw [hdev] at hiff
  exact hiff

end Sys2Proof.Machine
end

section
/-! SUPPORT. The statements on reset and configuration (spec/70_reset_and_hazards.md R240, R242): a new session is
empty, the reset state meets the invariant, and no step changes a configuration. -/

namespace Sys2Proof.Machine

/-! ### Configurations (R240) -/

/-- Settles O11: the instruction keeps the session's configuration and program and every other session, and the turn
before it only permutes the sessions. -/
theorem noStepChangesAnyConfiguration : Obligations.NoStepChangesAnyConfiguration := by
  unfold Obligations.NoStepChangesAnyConfiguration
  intro s t h
  obtain ⟨item, i, -, -, hexec⟩ := step_next h
  obtain ⟨hconfig, hprogram, hothers, -⟩ := exec_keeps_config_program_others_turns hexec
  obtain ⟨hturn, -⟩ := turnsReorderSessionsAndReachEveryOne.1 s
  refine ⟨hconfig, hothers, ?_⟩
  rw [hconfig, hprogram, hothers]
  exact hturn.map fun d => (d.config, d.program)

/-! ### Reset (R242) -/

/-- Settles O1: `newSession` sets these fields whatever it is given, and the reset session is a new one. -/
theorem aNewSessionStartsEmpty : Obligations.ANewSessionStartsEmpty := by
  unfold Obligations.ANewSessionStartsEmpty
  exact ⟨fun _ _ _ => ⟨rfl, rfl, rfl, rfl⟩, rfl, rfl, rfl⟩

/-- A new session meets the session invariant, whatever it is created with: nothing is pending, delivered or
faulted, and it stands at the start of its program. -/
theorem Session.inv_newSession (cfg : DeviceConfig) (p : List ProgramItem) (a : List TransportAnswer) :
    Session.Inv (newSession cfg p a) where
  pendingComplete := by simp [newSession]
  framesComplete := List.forall_mem_nil _
  oneFault := Nat.zero_le 1
  faultPosition := List.forall_mem_nil _
  oneResponsePerStep := rfl
  noFatalDelivered := List.forall_mem_nil _
  withinProgram := Nat.zero_le p.length

/-- Settles O2: the only session is a new one, and the bus is empty. -/
theorem resetMeetsTheInvariant : Obligations.ResetMeetsTheInvariant where
  dev := Session.inv_newSession Config.resetDevice [] []
  others := List.forall_mem_nil _
  bracketed := rfl
  sentComplete := List.forall_mem_nil _

end Sys2Proof.Machine
end
